-- ==== Sys2Proof/Word.lean ====
section
/-! DEFINITION. The words of the RISKYMouse CD32 bridge: operation words, report bytes, line levels. -/

namespace Sys2Proof

/-- A 32-bit operation or data word (30_encoding.md R110), and the width of `MS`, `DW.lc`, `DW.ws`. -/
abbrev Word := BitVec 32

/-- One byte of a raw HID report (20_memory.md R70). -/
abbrev Byte := BitVec 8

/-- A line level, `true` for 1 (high), `false` for 0 (low) (00_scope.md R12). -/
abbrev Level := Bool

end Sys2Proof
end

