-- ==== Sys2Proof/Config.lean ====
section
/-! DEFINITION. The fixed parameters (00_scope.md R7), the types of the open parameters (R8), the field layout of a
connection (30_encoding.md R105), the reference values, and the one free value (20_memory.md R72). -/

namespace Sys2Proof

/-- `SETTLE_MS`: the wait after a connection before detection (R7). -/
abbrev Config.settleMs : Nat := 500

/-- `WINDOW_MS`: the length of the detection window (R7). -/
abbrev Config.windowMs : Nat := 100

/-- `PULSE_MIN`: the pulses needed on each line (R7). -/
abbrev Config.pulseMin : Nat := 5

/-- `MAX_INDEX`: the last index of a burst (R7). -/
abbrev Config.maxIndex : BitVec 4 := 9#4

/-- FREE VALUE: what a byte read outside the payload gives. The spec says such an access "has no defined result"
(20_memory.md R72), so nothing is known of it. No DEC that completes reads it (notes/assumptions/11.md). -/
opaque Config.outsidePayload : Nat → Byte

/-- The three dual-purpose lines (10_state.md R44). -/
inductive DualLine where
  | lat
  | clk
  | dat
  deriving DecidableEq, Repr

/-- `DIR_BIT`: which of `GS.dp` bits 0 to 3 is left, right, up, down (R8, R33). -/
structure DirBit where
  left : Fin 4
  right : Fin 4
  up : Fin 4
  down : Fin 4
  deriving DecidableEq, Repr

/-- `BTN_LINE`: which dual-purpose line each of `GS.dp` bits 4, 5, 6 drives in Normal mode (R8, R103). -/
structure BtnLine where
  b4 : DualLine
  b5 : DualLine
  b6 : DualLine
  deriving DecidableEq, Repr

/-- The open parameters that operations read (R8). `clkFallIrq` is `CLK_FALL_IRQ`. -/
structure Params where
  dirBit : DirBit
  btnLine : BtnLine
  clkFallIrq : Bool
  deriving DecidableEq, Repr

/-- The four directions take four different bits, and `BTN_LINE` is a bijection (R33, R103). -/
abbrev Params.Legal (p : Params) : Prop :=
  [p.dirBit.left, p.dirBit.right, p.dirBit.up, p.dirBit.down].Nodup ∧
    [p.btnLine.b4, p.btnLine.b5, p.btnLine.b6].Nodup

/-- The reference values of R8. -/
def Params.reference : Params where
  dirBit := { left := 0, right := 1, up := 2, down := 3 }
  btnLine := { b4 := .lat, b5 := .clk, b6 := .dat }
  clkFallIrq := true

/-- `cfg.axis[k]` (R105). -/
structure AxisField where
  bitOffset : Nat
  bitSize : Nat
  logicalMin : Int
  logicalMax : Int
  deriving DecidableEq, Repr

/-- `cfg.button[b]` (R105). -/
structure ButtonField where
  byteOffset : Nat
  bitmask : Byte
  deriving DecidableEq, Repr

/-- The `HidFieldConfig` `cfg` (R105): axis 0 is the horizontal axis, axis 1 the vertical. -/
structure HidFieldConfig where
  axis0 : AxisField
  axis1 : AxisField
  button : Vector ButtonField 12
  reportIdPresent : Bool
  reportLength : Nat
  deriving DecidableEq, Repr

/-- `cfg` A of 95_test_vectors.md, part 0. -/
def HidFieldConfig.a : HidFieldConfig where
  axis0 := { bitOffset := 0, bitSize := 8, logicalMin := 0, logicalMax := 255 }
  axis1 := { bitOffset := 8, bitSize := 8, logicalMin := 0, logicalMax := 255 }
  button := #v[⟨2, 0x01⟩, ⟨2, 0x02⟩, ⟨2, 0x04⟩, ⟨2, 0x08⟩, ⟨2, 0x10⟩, ⟨2, 0x20⟩, ⟨2, 0x40⟩, ⟨2, 0x80⟩,
    ⟨3, 0x01⟩, ⟨3, 0x02⟩, ⟨3, 0x04⟩, ⟨3, 0x08⟩]
  reportIdPresent := false
  reportLength := 4

end Sys2Proof
end

