-- ==== Sys2Proof/Syntax.lean ====
section
/-! DEFINITION. The twelve operations (00_scope.md R13, 30_encoding.md R112), and the agent that runs each. -/

namespace Sys2Proof

/-- One operation of the block, one constructor per row of the opcode table (R112). -/
inductive Instr where
  /-- Latch falling edge (42_shift_engine.md R201). -/
  | lf
  /-- Latch rising edge (R202). -/
  | lr
  /-- Clock falling edge (R204). -/
  | cf
  /-- Clock rising edge (R203). -/
  | cr
  /-- The Mode Controller processes a gamepad state (41_mode_controller.md R171). -/
  | proc (dp ex : Byte)
  /-- Enable CD32 mode (R172). -/
  | en
  /-- Disable CD32 mode (R173). -/
  | dis
  /-- One poll of the Autodetector (43_autodetector.md R231). -/
  | det
  /-- Window close and decision (R232). -/
  | wcl
  /-- Connection reset (R233). -/
  | rst
  /-- Decode one raw report (40_report_decoder.md R142). -/
  | dec (raw : List Byte)
  /-- Advance the millisecond counter by `k` (R234). -/
  | tick (k : Nat)
  deriving DecidableEq, Repr

/-- The three agents that take steps (10_state.md R30). -/
inductive Agent where
  | polling
  | handler
  | environment
  deriving DecidableEq, Repr

/-- The agent of each operation (R112). -/
def Instr.agent : Instr → Agent
  | .lf => .handler
  | .lr => .handler
  | .cf => .handler
  | .cr => .handler
  | .proc _ _ => .polling
  | .en => .polling
  | .dis => .polling
  | .det => .polling
  | .wcl => .polling
  | .rst => .polling
  | .dec _ => .polling
  | .tick _ => .environment

end Sys2Proof
end

