-- ==== Sys2Proof/WellFormed.lean ====
section
/-! DEFINITION. Which operations the encoding can write: a report of at most 255 bytes (30_encoding.md R113), a tick
count below 2^24 (R111, 43_autodetector.md R234). The block itself bounds neither. -/

namespace Sys2Proof

/-- The operation has an operation word (R111, R113). -/
def Instr.wf : Instr → Bool
  | .lf => true
  | .lr => true
  | .cf => true
  | .cr => true
  | .proc _ _ => true
  | .en => true
  | .dis => true
  | .det => true
  | .wcl => true
  | .rst => true
  | .dec raw => decide (raw.length ≤ 255)
  | .tick k => decide (k < 2 ^ 24)

end Sys2Proof
end

