-- ==== Sys2Proof/Decode.lean ====
section
/-! DEFINITION. Operation words (30_encoding.md part B): decoding, total on any list of words and refusing by name, and
the encoder. The words are this spec's trace notation, not something the block fetches (R110, 20_memory.md R85). -/

namespace Sys2Proof

/-- Why a list of words begins with no operation. -/
inductive DecodeError where
  /-- There is no word at all. -/
  | noWord
  /-- The opcode is not in the map, or a field the format shows as 0 is not 0 (R114). -/
  | illegalWord (w : Word)
  /-- A DEC word is followed by fewer data words than its `n` asks for (R113; notes/assumptions/5.md). -/
  | missingDataWord
  /-- An unused byte position of a DEC's last data word is not 0 (R113; notes/assumptions/4.md). -/
  | spareByteNotZero (w : Word)
  deriving DecidableEq, Repr

/-- `W[31:24]`, the opcode (R110). -/
def opcodeOf (w : Word) : BitVec 8 := w.extractLsb' 24 8

/-- `W[23:0]`, the operand field (R110). -/
def operandOf (w : Word) : BitVec 24 := w.extractLsb' 0 24

/-- Byte `j` of a word, byte 0 in bits 7:0 (R113). -/
def byteOf (w : Word) (j : Nat) : Byte := w.extractLsb' (8 * j) 8

/-- The word whose bytes are, from the most significant, `b3 b2 b1 b0` (R113). -/
def wordOfBytes (b3 b2 b1 b0 : Byte) : Word := b3 ++ b2 ++ b1 ++ b0

/-- Reads `n` report bytes from data words, four per word, the unused positions of the last word being 0 (R113). -/
def unpackBytes : Nat → List Word → Except DecodeError (List Byte × List Word)
  | 0, ws => .ok ([], ws)
  | _ + 1, [] => .error .missingDataWord
  | 1, w :: ws =>
    if byteOf w 1 = 0 ∧ byteOf w 2 = 0 ∧ byteOf w 3 = 0 then .ok ([byteOf w 0], ws) else .error (.spareByteNotZero w)
  | 2, w :: ws =>
    if byteOf w 2 = 0 ∧ byteOf w 3 = 0 then .ok ([byteOf w 0, byteOf w 1], ws) else .error (.spareByteNotZero w)
  | 3, w :: ws =>
    if byteOf w 3 = 0 then .ok ([byteOf w 0, byteOf w 1, byteOf w 2], ws) else .error (.spareByteNotZero w)
  | n + 4, w :: ws =>
    match unpackBytes n ws with
    | .ok (raw, rest) => .ok (byteOf w 0 :: byteOf w 1 :: byteOf w 2 :: byteOf w 3 :: raw, rest)
    | .error e => .error e

/-- Report bytes as data words (R113). -/
def packBytes : List Byte → List Word
  | [] => []
  | [a] => [wordOfBytes 0 0 0 a]
  | [a, b] => [wordOfBytes 0 0 b a]
  | [a, b, c] => [wordOfBytes 0 c b a]
  | a :: b :: c :: d :: raw => wordOfBytes d c b a :: packBytes raw

/-- Format Z: the operand field is 0 (R111). -/
def decodeZ (i : Instr) (w : Word) (ws : List Word) : Except DecodeError (Instr × List Word) :=
  if operandOf w = 0 then .ok (i, ws) else .error (.illegalWord w)

/-- Format P: `ex` in `W[15:8]`, `dp` in `W[7:0]`, `W[23:16]` is 0 (R111). -/
def decodeP (w : Word) (ws : List Word) : Except DecodeError (Instr × List Word) :=
  if byteOf w 2 = 0 then .ok (.proc (byteOf w 0) (byteOf w 1), ws) else .error (.illegalWord w)

/-- Format D: `n` in `W[7:0]`, `W[23:8]` is 0, then the data words (R111, R113). -/
def decodeD (w : Word) (ws : List Word) : Except DecodeError (Instr × List Word) :=
  if byteOf w 1 = 0 ∧ byteOf w 2 = 0 then
    match unpackBytes (byteOf w 0).toNat ws with
    | .ok (raw, rest) => .ok (.dec raw, rest)
    | .error e => .error e
  else .error (.illegalWord w)

/-- Format T: `k` is the operand field (R111). -/
def decodeT (w : Word) (ws : List Word) : Except DecodeError (Instr × List Word) :=
  .ok (.tick (operandOf w).toNat, ws)

/-- The first operation of a list of words and the words after it: the opcode map of R112. -/
def decode : List Word → Except DecodeError (Instr × List Word)
  | [] => .error .noWord
  | w :: ws =>
    match opcodeOf w with
    | 0x00#8 => decodeZ .lf w ws
    | 0x01#8 => decodeZ .lr w ws
    | 0x02#8 => decodeZ .cf w ws
    | 0x03#8 => decodeZ .cr w ws
    | 0x10#8 => decodeP w ws
    | 0x20#8 => decodeZ .en w ws
    | 0x21#8 => decodeZ .dis w ws
    | 0x30#8 => decodeZ .det w ws
    | 0x31#8 => decodeZ .wcl w ws
    | 0x32#8 => decodeZ .rst w ws
    | 0x40#8 => decodeD w ws
    | 0x50#8 => decodeT w ws
    | _ => .error (.illegalWord w)

/-- The one word of an operation of format Z, P or T, or the first word of a DEC (R111). -/
def headWord (op : BitVec 8) (operand : BitVec 24) : Word := op ++ operand

/-- The words of an operation (R111 to R113). -/
def encode : Instr → List Word
  | .lf => [headWord 0x00 0]
  | .lr => [headWord 0x01 0]
  | .cf => [headWord 0x02 0]
  | .cr => [headWord 0x03 0]
  | .proc dp ex => [wordOfBytes 0x10 0 ex dp]
  | .en => [headWord 0x20 0]
  | .dis => [headWord 0x21 0]
  | .det => [headWord 0x30 0]
  | .wcl => [headWord 0x31 0]
  | .rst => [headWord 0x32 0]
  | .dec raw => wordOfBytes 0x40 0 0 (BitVec.ofNat 8 raw.length) :: packBytes raw
  | .tick k => [headWord 0x50 (BitVec.ofNat 24 k)]

/-- How many words an operation that begins with `w` takes: `1 + ceil(n / 4)` for a DEC, else one (R113). -/
def wordCount (w : Word) : Nat := if opcodeOf w = 0x40 then 1 + ((byteOf w 0).toNat + 3) / 4 else 1

/-- The words of the instruction whose bits are `w`, bit 0 the least significant bit of the first word, the bits from
`nbits` on being 0: as many words as its first word asks for. -/
def tableWords (nbits w : Nat) : List Word :=
  (List.range (wordCount (BitVec.ofNat 32 (w % 2 ^ nbits)))).map fun j => BitVec.ofNat 32 (w % 2 ^ nbits / 2 ^ (32 * j))

/-- What the decoder reads from the instruction whose bits are `w`. -/
def decodeTableWord (nbits w : Nat) : Option Instr :=
  match decode (tableWords nbits w) with
  | .ok (i, []) => some i
  | _ => none

end Sys2Proof
end

