-- ==== Sys2Proof/Machine/State.lean ====
section
/-! DEFINITION. The state the spec gives the block (10_state.md), the reasons a step can stop, and the state after
reset (R55). -/

namespace Sys2Proof.Machine

/-- `MODE`, the `ProtocolMode` (10_state.md R41). -/
inductive Mode where
  | normal
  | cd32
  deriving DecidableEq, Repr

/-- A line's role: push-pull output, or pulled-up input (R45). -/
inductive Role where
  | out
  | inpu
  deriving DecidableEq, Repr

/-- The seven lines, addressed by name (R44, 20_memory.md R70). -/
inductive Line where
  | dir (i : Fin 4)
  | lat
  | clk
  | dat
  deriving DecidableEq, Repr

/-- The two input-role lines, which alone change role and raise the edge interrupt (R45, 60_exceptions.md R263). -/
inductive InLine where
  | lat
  | clk
  deriving DecidableEq, Repr

/-- The two synchronous failures (60_exceptions.md R260). -/
inductive DecodeFailure where
  | emptyReport
  | shortRead
  deriving DecidableEq, Repr

/-- `GS`, the `GamepadState` (R32). -/
structure GamepadState where
  dp : Byte
  ex : Byte
  deriving DecidableEq, Repr

/-- `SH`, the `ShiftState` (R35). `sv` holds three levels: bit 0 LAT, bit 1 CLK, bit 2 DAT (30_encoding.md R104). -/
structure ShiftState where
  idx : BitVec 4
  lw : BitVec 16
  sv : BitVec 3
  deriving DecidableEq, Repr

/-- `DW`, the `DetectionWindow` (R36), with the hidden stamp `ws` (R52). -/
structure DetectionWindow where
  pl : BitVec 16
  pc : BitVec 16
  wa : Bool
  dd : Bool
  lc : Word
  ws : Word
  deriving DecidableEq, Repr

/-- The output latches of `DIR[0]` to `DIR[3]` (R45); their role is hard-wired OUT (R43). -/
structure DirLines where
  d0 : Level
  d1 : Level
  d2 : Level
  d3 : Level
  deriving DecidableEq, Repr

/-- The registers of LAT or of CLK (R45), with the level the host puts on it (R46). -/
structure PinLine where
  olat : Level
  role : Role
  ie : Bool
  ext : Level
  deriving DecidableEq, Repr

/-- Everything the spec gives the block, with the configuration of the run (R31; notes/assumptions/6.md, 7.md), the
return value of the last DEC (notes/assumptions/10.md) and the operation words still to come
(notes/assumptions/1.md). `dat` is `DAT.olat`; the role of DAT is hard-wired OUT (R43). -/
structure State where
  gs : GamepadState
  bw : BitVec 16
  mode : Mode
  sh : ShiftState
  dw : DetectionWindow
  dir : DirLines
  lat : PinLine
  clk : PinLine
  dat : Level
  ms : Word
  par : Params
  cfg : HidFieldConfig
  connections : List HidFieldConfig
  failure : Option DecodeFailure
  trace : List Word
  deriving DecidableEq, Repr

/-- No operation of the block is fatal: "Nothing else faults" beside the two non-fatal failures of DEC, which are a
return value (60_exceptions.md R260 to R262). So the type is empty, and no step ever ends in a fault. -/
inductive Fault where
  deriving DecidableEq, Repr

/-- Why a trace is refused. Each is safe: the spec says an ill-formed trace is refused and is not a behaviour of the
block (30_encoding.md R114, R118). -/
inductive Refusal where
  /-- An operation with no meaning yet; no arm of this model raises it. -/
  | notModelled (mnemonic : String)
  /-- Raised by `step`: the next words are no operation (R113, R114). Safe. -/
  | badWord (e : DecodeError)
  /-- Raised by LF, LR, CF, CR: the line already has the edge's new level, so the edge cannot happen (R118). Safe. -/
  | noSuchEdge (l : InLine)
  /-- Raised by DEC, PROC, EN, DIS, DET, RST while `DW.wa = 1`: the polling context is inside the busy-wait
  (10_state.md R53, R118). Safe. -/
  | pollingBusy
  /-- Raised by WCL while `DW.wa = 0` (43_autodetector.md R232, R118). Safe. -/
  | windowNotOpen
  /-- Raised by WCL before the 100 ms have passed (R232, R118). Safe. -/
  | waitNotOver
  /-- Raised by a TICK that would carry `MS` past `DW.ws + 100` while `DW.wa = 1` (R234, R118). Safe. -/
  | timeHeld
  /-- Raised by DEC under a `cfg` that breaks 40_report_decoder.md R141: "the model gives DEC no meaning under it".
  Safe. -/
  | malformedConfig
  deriving DecidableEq, Repr

/-- A line register pair as after reset: output driven high, interrupt disabled (R49). -/
def PinLine.released (ext : Level) : PinLine := { olat := true, role := .out, ie := false, ext := ext }

/-- The state after power-on reset (R55) for any open parameters `p`, any layout `c`, any host levels (`EXT_RESET`),
any value of `MS`, and any draw of the three unspecified registers (R302). -/
def State.powerOn (p : Params) (c : HidFieldConfig) (latExt clkExt : Level) (ms : Word) (lw : BitVec 16) (sv : BitVec 3)
    (ws : Word) : State where
  gs := { dp := 0, ex := 0 }
  bw := 0x0300
  mode := .normal
  sh := { idx := 0, lw := lw, sv := sv }
  dw := { pl := 0, pc := 0, wa := false, dd := false, lc := ms, ws := ws }
  dir := { d0 := true, d1 := true, d2 := true, d3 := true }
  lat := PinLine.released latExt
  clk := PinLine.released clkExt
  dat := true
  ms := ms
  par := p
  cfg := c
  connections := []
  failure := none
  trace := []

/-- The state after reset (R55): the reference parameters of 00_scope.md R8, `cfg` A, `MS = 0`. DESIGN CHOICE: the
unspecified registers are 0 (notes/assumptions/8.md), the layout is `cfg` A (7.md); no claim rests on either. -/
def State.reset : State := State.powerOn Params.reference HidFieldConfig.a true true 0 0 0 0

end Sys2Proof.Machine
end

