-- ==== Sys2Proof/Machine/Ops.lean ====
section
/-! DEFINITION. The operations the meanings share: lines, the pad level, the button word, the millisecond counter, a
decode failure, and the edge interrupt (the block's one exception entry and return). -/

namespace Sys2Proof.Machine

/-- The outcome of an operation. -/
abbrev Result := Host.Outcome State Fault Refusal

/-- Runs `f` on the next state, and keeps a stop. -/
def andThen (r : Result) (f : State → Result) : Result :=
  match r with
  | .next s => f s
  | .fault e => .fault e
  | .refused e => .refused e

/-! ## Lines (10_state.md R44 to R48, 00_scope.md R11) -/

/-- The latch of `DIR[i]`. -/
def DirLines.get (d : DirLines) (i : Fin 4) : Level :=
  match i with
  | 0 => d.d0
  | 1 => d.d1
  | 2 => d.d2
  | 3 => d.d3

/-- Writes the latch of `DIR[i]`. -/
def DirLines.set (d : DirLines) (i : Fin 4) (v : Level) : DirLines :=
  match i with
  | 0 => { d with d0 := v }
  | 1 => { d with d1 := v }
  | 2 => { d with d2 := v }
  | 3 => { d with d3 := v }

/-- An input-role line as one of the seven lines. -/
def InLine.line : InLine → Line
  | .lat => .lat
  | .clk => .clk

/-- A dual-purpose line as one of the seven lines. -/
def dualLine : DualLine → Line
  | .lat => .lat
  | .clk => .clk
  | .dat => .dat

/-- `LineWrite(l, v)` on LAT's or CLK's registers (00_scope.md R11). -/
def PinLine.write (p : PinLine) (v : Level) : PinLine := { p with olat := v }

/-- `LineRole(l, r)` (R11); only LAT and CLK can change role (10_state.md R45). -/
def PinLine.setRole (p : PinLine) (r : Role) : PinLine := { p with role := r }

/-- `IrqEnable(l, b)` (R11). -/
def PinLine.irqEnable (p : PinLine) (b : Bool) : PinLine := { p with ie := b }

/-- The registers of LAT or CLK. -/
def State.pin (s : State) (l : InLine) : PinLine :=
  match l with
  | .lat => s.lat
  | .clk => s.clk

/-- Writes the registers of LAT or CLK. -/
def State.setPin (s : State) (l : InLine) (p : PinLine) : State :=
  match l with
  | .lat => { s with lat := p }
  | .clk => { s with clk := p }

/-- `LineOut(l)`: the level last written to line `l` (00_scope.md R11). -/
def State.lineOut (s : State) (l : Line) : Level :=
  match l with
  | .dir i => s.dir.get i
  | .lat => s.lat.olat
  | .clk => s.clk.olat
  | .dat => s.dat

/-- `LineWrite(l, v)`: `l.olat <- v`, whatever the role of `l` (10_state.md R47). -/
def State.lineWrite (s : State) (l : Line) (v : Level) : State :=
  match l with
  | .dir i => { s with dir := s.dir.set i v }
  | .lat => { s with lat := s.lat.write v }
  | .clk => { s with clk := s.clk.write v }
  | .dat => { s with dat := v }

/-- `l.role`; DAT and the direction lines are hard-wired OUT (R43, R45). -/
def State.role (s : State) (l : Line) : Role :=
  match l with
  | .dir _ => .out
  | .lat => s.lat.role
  | .clk => s.clk.role
  | .dat => .out

/-- `l.ext <- v`: the host moved the line (R46, 42_shift_engine.md R200). -/
def State.setExt (s : State) (l : InLine) (v : Level) : State := s.setPin l { s.pin l with ext := v }

/-- The host pulls a line low that the block drives high (10_state.md R48, 70_reset_and_hazards.md R318). A high `ext`
is also what a host that does not drive the line gives (R46), so it contends with nothing (notes/assumptions/15.md). -/
def State.contended (s : State) (l : InLine) : Bool :=
  (s.pin l).role == .out && (s.pin l).olat && !(s.pin l).ext

/-- The level of LAT or CLK on the wire (R48): none under contention, where the spec gives no level (R318). -/
def State.pinPad (s : State) (l : InLine) : Option Level :=
  match (s.pin l).role with
  | .inpu => some (s.pin l).ext
  | .out => bif s.contended l then none else some (s.pin l).olat

/-- The pad level of a line, what the host observes (R48). -/
def State.pad (s : State) (l : Line) : Option Level :=
  match l with
  | .dir i => some (s.dir.get i)
  | .lat => s.pinPad .lat
  | .clk => s.pinPad .clk
  | .dat => some s.dat

/-! ## The button word and the millisecond counter -/

/-- `Atomic { BW <- w }`: one assignment, so no handler operation can see half of it (20_memory.md R81). -/
def State.writeBw (s : State) (w : BitVec 16) : State := { s with bw := w }

/-- Elapsed time between the stamp `since` and `now`: `(now - since) mod 2^32` (10_state.md R51). -/
def elapsed (now since : Word) : Nat := (now - since).toNat

/-- `MS <- (MS + k) mod 2^32` (R51, 43_autodetector.md R234). -/
def State.advanceMs (s : State) (k : Nat) : State := { s with ms := s.ms + BitVec.ofNat 32 k }

/-- The numeric value of `MODE` (R41). -/
def Mode.value : Mode → BitVec 1
  | .normal => 0
  | .cd32 => 1

/-! ## Decode failures (60_exceptions.md R260, R261) -/

/-- The numeric code of a failure (R260). -/
def DecodeFailure.code : DecodeFailure → Nat
  | .emptyReport => 1
  | .shortRead => 2

/-- `raise DecodeFailure(c)`: the DEC ends, writes no register, and hands `c` to the caller (R260). -/
def raise (c : DecodeFailure) (s : State) : Result := .next { s with failure := some c }

/-! ## The edge interrupt (42_shift_engine.md R200, 60_exceptions.md R263 to R267) -/

/-- Counts a delivered edge of `l` while the window is open, modulo 2^16 (R200). -/
def countEdge (l : InLine) (s : State) : State :=
  match l with
  | .lat => { s with dw := { s.dw with pl := s.dw.pl + 1 } }
  | .clk => { s with dw := { s.dw with pc := s.dw.pc + 1 } }

/-- `acknowledge`, and the handler's return: no register of the spec changes, nothing is restored (R200, R267). -/
def acknowledge (s : State) : State := s

/-- The handler's body once it runs: the window first, then the mode, then the protocol action `act` (R200, R265). -/
def handlerBody (l : InLine) (act : State → State) (s : State) : State :=
  acknowledge <|
    bif s.dw.wa then countEdge l s
    else match s.mode with
      | .normal => s
      | .cd32 => act s

/-- Delivery of an edge on `l` to the handler: a disabled edge runs no handler and leaves nothing pending; entry saves
nothing (R200, R264, R266). -/
def deliverEdge (l : InLine) (act : State → State) (s : State) : State :=
  bif (s.pin l).ie then handlerBody l act s else s

/-- An edge of `l` to the new level `v`: it needs the other level to start from (30_encoding.md R118). The host moves the
line, then the edge is delivered with the protocol action `act` (R200). -/
def edge (l : InLine) (v : Level) (act : State → State) (s : State) : Result :=
  bif (s.pin l).ext == v then .refused (.noSuchEdge l) else .next (deliverEdge l act (s.setExt l v))

end Sys2Proof.Machine
end

