-- ==== Sys2Proof/Machine/Flags.lean ====
section
/-! DEFINITION. The block's only status flags, `DW.wa` and `DW.dd` (10_state.md R42): setting and clearing them, and the
conditions they put on an operation. There are no condition codes. -/

namespace Sys2Proof.Machine

/-- A polling operation other than WCL has a step only while `DW.wa = 0` (10_state.md R53). -/
def whenPollingFree (k : State → Result) (s : State) : Result := bif s.dw.wa then .refused .pollingBusy else k s

/-- `DW.dd <- 1 ; DW.wa <- 1 ; DW.pl <- 0 ; DW.pc <- 0` (43_autodetector.md R231). -/
def State.openWindow (s : State) : State :=
  { s with dw := { s.dw with dd := true, wa := true, pl := 0, pc := 0 } }

/-- `DW.ws <- MS` (R231). -/
def State.stampWait (s : State) : State := { s with dw := { s.dw with ws := s.ms } }

/-- `DW.wa <- 0` (R232). -/
def State.closeWindow (s : State) : State := { s with dw := { s.dw with wa := false } }

/-- `DW.dd <- 0 ; DW.wa <- 0 ; DW.pl <- 0 ; DW.pc <- 0 ; DW.lc <- MS` (R233). -/
def State.clearDetection (s : State) : State :=
  { s with dw := { s.dw with dd := false, wa := false, pl := 0, pc := 0, lc := s.ms } }

/-- At `now`, at least 500 ms since the connection was last reset at `lc` (R231). -/
def settled (now lc : Word) : Bool := decide (Config.settleMs ≤ elapsed now lc)

/-- At `now`, the 100 ms of the window that opened at `ws` have passed (R232, R234). -/
def waitOver (now ws : Word) : Bool := decide (Config.windowMs ≤ elapsed now ws)

/-- Both counters reached 5 (R232). -/
def sawCd32 (pl pc : BitVec 16) : Bool := decide (Config.pulseMin ≤ pl.toNat) && decide (Config.pulseMin ≤ pc.toNat)

/-- At `now`, `k` single ticks may be taken: none of them falls at or after the end of a window that is open and was
opened at `ws` (R234). -/
def mayTick (k : Nat) (wa : Bool) (now ws : Word) : Bool :=
  !wa || k == 0 || decide (elapsed now ws + k ≤ Config.windowMs)

end Sys2Proof.Machine
end

