-- ==== Sys2Proof/Machine/ModeController.lean ====
section
/-! DEFINITION. The Mode Controller: PROC, EN, DIS (41_mode_controller.md). -/

namespace Sys2Proof.Machine

/-- `Remap(dp, ex)` (R174), the bits listed from `w[15:10]` down to `w[0]`. -/
def remap (dp ex : Byte) : BitVec 16 :=
  0#6 ++ 1#1 ++ 1#1 ++ 0#1 ++ BitVec.ofBool (ex.getLsbD 4 || ex.getLsbD 5) ++ BitVec.ofBool (ex.getLsbD 0) ++
    BitVec.ofBool (ex.getLsbD 1) ++ BitVec.ofBool (dp.getLsbD 7) ++ BitVec.ofBool (dp.getLsbD 4) ++
    BitVec.ofBool (dp.getLsbD 6) ++ BitVec.ofBool (dp.getLsbD 5)

/-- Group 1 of PROC: the direction lines, active-low, in both modes (R171). -/
def procDirections (dp : Byte) (s : State) : State :=
  { s with
    dir := (((s.dir.set 0 !dp.getLsbD 0).set 1 !dp.getLsbD 1).set 2 !dp.getLsbD 2).set 3 !dp.getLsbD 3 }

/-- Group 2 of PROC: the shared word (R171). -/
def procWord (dp ex : Byte) (s : State) : State := s.writeBw (remap dp ex)

/-- Group 3 of PROC: the dual-purpose lines, active-low, in Normal mode only (R171). -/
def procButtons (dp : Byte) (s : State) : State :=
  match s.mode with
  | .cd32 => s
  | .normal =>
    ((s.lineWrite (dualLine s.par.btnLine.b4) !dp.getLsbD 4).lineWrite (dualLine s.par.btnLine.b5)
      !dp.getLsbD 5).lineWrite (dualLine s.par.btnLine.b6) !dp.getLsbD 6

/-- PROC (R171), the three groups in order; one step for the registers (20_memory.md R82, notes/assumptions/12.md). -/
def execProc (dp ex : Byte) (s : State) : Result :=
  whenPollingFree (fun s => .next (procButtons dp (procWord dp ex (procDirections dp s)))) s

/-- LAT and CLK become pulled-up inputs with their interrupts enabled (R172, 43_autodetector.md R231). -/
def listenLines (s : State) : State :=
  { s with
    lat := (s.lat.setRole .inpu).irqEnable true
    clk := (s.clk.setRole .inpu).irqEnable true }

/-- `enable_cd32_mode()` (R172). -/
def enableCd32 (s : State) : State := { listenLines s with mode := .cd32 }

/-- The second branch of `disable_cd32_mode()`: interrupts off, LAT and CLK outputs driven high (R173). -/
def releaseLines (s : State) : State :=
  { s with
    lat := ((s.lat.irqEnable false).write true).setRole .out
    clk := ((s.clk.irqEnable false).write true).setRole .out }

/-- `disable_cd32_mode()`: nothing when the whole Normal-mode configuration is in place (R173, 90_conflicts.md C3). -/
def disableCd32 (s : State) : State :=
  if s.mode = .normal ∧ s.lat.role = .out ∧ s.clk.role = .out then s else { releaseLines s with mode := .normal }

/-- EN (R172). -/
def execEn (s : State) : Result := whenPollingFree (fun s => .next (enableCd32 s)) s

/-- DIS (R173). -/
def execDis (s : State) : Result := whenPollingFree (fun s => .next (disableCd32 s)) s

end Sys2Proof.Machine
end

