-- ==== Sys2Proof/Machine/Autodetector.lean ====
section
/-! DEFINITION. The Autodetector and the tick: DET, WCL, RST, TICK (43_autodetector.md). -/

namespace Sys2Proof.Machine

/-- DET (R231): one poll; opens the window once, when 500 ms have passed since the connection. -/
def execDet (s : State) : Result :=
  whenPollingFree
    (fun s => bif s.dw.dd || !settled s.ms s.dw.lc then .next s else .next (listenLines s.openWindow).stampWait) s

/-- The decision at the end of the window (R232). -/
def decideMode (s : State) : State := bif sawCd32 s.dw.pl s.dw.pc then enableCd32 s else disableCd32 s

/-- WCL (R232). -/
def execWcl (s : State) : Result :=
  bif s.dw.wa then
    bif waitOver s.ms s.dw.ws then .next (decideMode s.closeWindow) else .refused .waitNotOver
  else .refused .windowNotOpen

/-- The layout of the new connection takes the place of `cfg` (R233 corner case b, notes/assumptions/7.md). -/
def nextConnection (s : State) : State :=
  match s.connections with
  | [] => s
  | c :: cs => { s with cfg := c, connections := cs }

/-- RST (R233). -/
def execRst (s : State) : Result :=
  whenPollingFree (fun s => .next (nextConnection (disableCd32 s.clearDetection))) s

/-- One tick (R234). -/
def singleTick (s : State) : Result :=
  bif s.dw.wa && waitOver s.ms s.dw.ws then .refused .timeHeld else .next (s.advanceMs 1)

/-- `k` single ticks in a row (R234). -/
def manyTicks : Nat → State → Result
  | 0, s => .next s
  | k + 1, s => andThen (singleTick s) (manyTicks k)

/-- TICK `k` (R234): `k` single ticks in a row, taken in one step (notes/assumptions/16.md). -/
def execTick (k : Nat) (s : State) : Result :=
  bif mayTick k s.dw.wa s.ms s.dw.ws then .next (s.advanceMs k) else .refused .timeHeld

end Sys2Proof.Machine
end

