-- ==== Sys2Proof/Machine/Operands.lean ====
section
/-! DEFINITION. The operands of DEC: the payload and its bytes (20_memory.md R71 to R73), a bit field
(40_report_decoder.md R143), the axis normalization (R144), the buttons, and which layouts are admitted (R141). -/

namespace Sys2Proof.Machine

/-! ## The payload -/

/-- The bytes a report ID takes (20_memory.md R71). -/
def skip (c : HidFieldConfig) : Nat := if c.reportIdPresent then 1 else 0

/-- The payload: `p[a] = raw[a + skip]` (R71). -/
def payload (c : HidFieldConfig) (raw : List Byte) : List Byte := raw.drop (skip c)

/-- `MemRead(a, 1)` on the payload `p` (R72); outside it the free value (notes/assumptions/11.md). -/
def memRead (p : List Byte) (a : Nat) : Byte := (p[a]?).getD (Config.outsidePayload a)

/-- Bit `i` of the payload, least significant bit of byte 0 first (R73). -/
def payloadBit (p : List Byte) (i : Nat) : Nat := (memRead p (i / 8)).toNat / 2 ^ (i % 8) % 2

/-- `Field(off, size)`: the sum over `i` below `size` of bit `off + i` times `2^i` (40_report_decoder.md R143). -/
def field (p : List Byte) (off : Nat) : Nat → Nat
  | 0 => 0
  | size + 1 => field p off size + payloadBit p (off + size) * 2 ^ size

/-! ## Axis normalization (40_report_decoder.md R144) -/

/-- `clamp(v, lo, hi)`, the lower bound tested first (00_scope.md R11). -/
def clamp (v lo hi : Int) : Int := if v < lo then lo else if v > hi then hi else v

/-- `|a|` (00_scope.md R10). -/
def iabs (a : Int) : Int := a.natAbs

/-- `mid = (|min| + max) / 2`, the division truncating (R144, R10). -/
def axisMid (a : AxisField) : Int := (iabs a.logicalMin + a.logicalMax).tdiv 2

/-- `half = (max - |min|) / 2` (R144). -/
def axisHalf (a : AxisField) : Int := (a.logicalMax - iabs a.logicalMin).tdiv 2

/-- `dz = half / 63` (R144). -/
def axisDz (a : AxisField) : Int := (axisHalf a).tdiv 63

/-- `sext_size(u)` when the range is reversed, else `u` (R144, R145). -/
def axisRaw (u : Nat) (a : AxisField) : Int :=
  if a.logicalMin > a.logicalMax then (BitVec.ofNat a.bitSize u).toInt else u

/-- The dead zone: values within `±dz` collapse to 0, the others move toward zero by `dz` (R144). -/
def deadZone (c dz : Int) : Int := if c > dz then c - dz else if c < -dz then c + dz else 0

/-- `Norm(u, a)` (R144); the product is formed before the division. -/
def axisNorm (u : Nat) (a : AxisField) : Int :=
  let v := clamp (axisRaw u a) a.logicalMin a.logicalMax
  let c := deadZone (v - axisMid a) (axisDz a)
  clamp ((c * 127).tdiv (axisHalf a - axisDz a)) (-127) 127 + 127

/-- The normalized value of an axis of payload `p` (R142). -/
def axisValue (p : List Byte) (a : AxisField) : Int := axisNorm (field p a.bitOffset a.bitSize) a

/-! ## The gamepad state of a report (40_report_decoder.md R142) -/

/-- `if c then v[i] <- 1`. -/
def setBitIf (c : Bool) (i : Nat) (v : Byte) : Byte := if c then v ||| BitVec.twoPow 8 i else v

/-- Whether button `b` is pressed: `(byte AND bitmask) != 0` (R142). -/
def pressed (p : List Byte) (c : HidFieldConfig) (b : Fin 12) : Bool :=
  memRead p c.button[b].byteOffset &&& c.button[b].bitmask != 0

/-- The direction bits of `dp`: below 64 is left or up, above 192 is right or down (R142). -/
def directionBits (d : DirBit) (ax0 ax1 : Int) : Byte :=
  setBitIf (decide (ax1 > 192)) d.down <|
    setBitIf (decide (ax1 < 64)) d.up <|
      setBitIf (decide (ax0 > 192)) d.right <|
        setBitIf (decide (ax0 < 64)) d.left 0

/-- The `GamepadState` of a report with the pressed buttons `pr` (R142): buttons 0 to 3 are `dp[7:4]`, buttons 4 to 11
are `ex`. -/
def gamepadOf (d : DirBit) (ax0 ax1 : Int) (pr : Fin 12 → Bool) : GamepadState where
  dp := setBitIf (pr 3) 7 (setBitIf (pr 2) 6 (setBitIf (pr 1) 5 (setBitIf (pr 0) 4 (directionBits d ax0 ax1))))
  ex := setBitIf (pr 11) 7 (setBitIf (pr 10) 6 (setBitIf (pr 9) 5 (setBitIf (pr 8) 4
    (setBitIf (pr 7) 3 (setBitIf (pr 6) 2 (setBitIf (pr 5) 1 (setBitIf (pr 4) 0 0)))))))

/-- What DEC writes to `GS` for the report `raw` (R142). -/
def decodeReport (d : DirBit) (c : HidFieldConfig) (raw : List Byte) : GamepadState :=
  let p := payload c raw
  gamepadOf d (axisValue p c.axis0) (axisValue p c.axis1) (pressed p c)

/-! ## Admitted layouts (40_report_decoder.md R141) -/

/-- Conditions 2 and 4 of R141 for one axis, `len` being the payload length in bytes. -/
def axisAdmitted (len : Nat) (a : AxisField) : Bool :=
  decide (1 ≤ a.bitSize ∧ a.bitOffset + a.bitSize ≤ 8 * len ∧ 0 < axisHalf a - axisDz a)

/-- A well-formed configuration (R141), the four conditions in order. -/
def admitted (c : HidFieldConfig) : Bool :=
  decide (skip c ≤ c.reportLength) && axisAdmitted (c.reportLength - skip c) c.axis0 &&
    axisAdmitted (c.reportLength - skip c) c.axis1 &&
    decide (∀ b : Fin 12, c.button[b].byteOffset < c.reportLength - skip c)

end Sys2Proof.Machine
end

