-- ==== Sys2Proof/Machine/ReportDecoder.lean ====
section
/-! DEFINITION. The Report Decoder: DEC (40_report_decoder.md). -/

namespace Sys2Proof.Machine

/-- `decode` on an admitted layout: the two failures in their order, else `GS` is written (R142, R260). -/
def decodeInto (raw : List Byte) (s : State) : Result :=
  if raw.length = 0 then raise .emptyReport s
  else if raw.length < s.cfg.reportLength then raise .shortRead s
  else .next { s with gs := decodeReport s.par.dirBit s.cfg raw, failure := none }

/-- DEC (R142), enabled when `DW.wa = 0` and `cfg` is well formed (R141). -/
def execDec (raw : List Byte) (s : State) : Result :=
  whenPollingFree (fun s => bif admitted s.cfg then decodeInto raw s else .refused .malformedConfig) s

end Sys2Proof.Machine
end

