-- ==== Sys2Proof/Machine/ShiftEngine.lean ====
section
/-! DEFINITION. The CD32 Shift Engine: LF, LR, CR, CF (42_shift_engine.md). -/

namespace Sys2Proof.Machine

/-- The saved levels: bit 2 DAT, bit 1 CLK, bit 0 LAT, the output latches (30_encoding.md R104, R201). -/
def savedLevels (s : State) : BitVec 3 := BitVec.ofBool s.dat ++ BitVec.ofBool s.clk.olat ++ BitVec.ofBool s.lat.olat

/-- The protocol action of a Latch falling edge (R201). -/
def latchFallAction (s : State) : State :=
  { s with sh := { idx := 0, lw := s.bw, sv := savedLevels s }, dat := !s.bw.getLsbD 0 }

/-- The protocol action of a Latch rising edge: the three saved levels come back (R202). -/
def latchRiseAction (s : State) : State :=
  { s with
    lat := s.lat.write (s.sh.sv.getLsbD 0)
    clk := s.clk.write (s.sh.sv.getLsbD 1)
    dat := s.sh.sv.getLsbD 2 }

/-- The protocol action of a Clock rising edge: the next bit, the index saturating at 9 (R203, 90_conflicts.md C1). -/
def clockRiseAction (s : State) : State :=
  if s.sh.idx < Config.maxIndex then
    { s with sh := { s.sh with idx := s.sh.idx + 1 }, dat := !s.sh.lw.getLsbD (s.sh.idx + 1).toNat }
  else s

/-- The protocol action of a Clock falling edge: none (R204). -/
def clockFallAction (s : State) : State := s

/-- LF (R201). -/
def execLf (s : State) : Result := edge .lat false latchFallAction s

/-- LR (R202). -/
def execLr (s : State) : Result := edge .lat true latchRiseAction s

/-- CR (R203). -/
def execCr (s : State) : Result := edge .clk true clockRiseAction s

/-- CF (R204): when `CLK_FALL_IRQ` is false the edge only moves the line, whatever `CLK.ie` is. -/
def execCf (s : State) : Result :=
  bif s.par.clkFallIrq then edge .clk false clockFallAction s
  else bif s.clk.ext then .next (s.setExt .clk false)
  else .refused (.noSuchEdge .clk)

end Sys2Proof.Machine
end

