-- ==== Sys2Proof/Machine/Dispatch.lean ====
section
/-! DEFINITION. exec: one arm per operation of the opcode table (30_encoding.md R112). -/

namespace Sys2Proof.Machine

def exec (i : Instr) (s : State) : Host.Outcome State Fault Refusal :=
  match i with
  -- the handler
  | .lf => Sys2Proof.Machine.execLf s
  | .lr => Sys2Proof.Machine.execLr s
  | .cf => Sys2Proof.Machine.execCf s
  | .cr => Sys2Proof.Machine.execCr s
  -- the polling context
  | .proc dp ex => Sys2Proof.Machine.execProc dp ex s
  | .en => Sys2Proof.Machine.execEn s
  | .dis => Sys2Proof.Machine.execDis s
  | .det => Sys2Proof.Machine.execDet s
  | .wcl => Sys2Proof.Machine.execWcl s
  | .rst => Sys2Proof.Machine.execRst s
  | .dec raw => Sys2Proof.Machine.execDec raw s
  -- the environment
  | .tick k => Sys2Proof.Machine.execTick k s

end Sys2Proof.Machine
end

