-- ==== Sys2Proof/Machine/Step.lean ====
section
/-! DEFINITION. One step: the next operation of the trace (30_encoding.md R110, notes/assumptions/1.md). -/

namespace Sys2Proof.Machine

/-- Takes the next operation off the trace and runs it; refuses words that are no operation (R114); idles when the
environment delivers nothing (notes/assumptions/2.md). -/
def step (s : State) : Host.Outcome State Fault Refusal :=
  match s.trace with
  | [] => .next s
  | w :: ws =>
    match decode (w :: ws) with
    | .ok (i, rest) => exec i { s with trace := rest }
    | .error e => .refused (.badWord e)

/-- The state in which the instruction whose bits are `w` is the next operation of the trace. -/
def State.withFetchWord (s : State) (nbits w : Nat) : State := { s with trace := tableWords nbits w ++ s.trace }

end Sys2Proof.Machine
end

