-- ==== Sys2Proof/Machine/Trace.lean ====
section
/-! DEFINITION. Traces: sequences of operations, their words, and the pseudo-operations (30_encoding.md R110, R114,
R117). -/

namespace Sys2Proof.Machine

/-- Performs operations in order; the first that is refused ends the trace (R118). -/
def runOps : List Instr → State → Result
  | [], s => .next s
  | i :: is, s => andThen (exec i s) (runOps is)

/-- A list of words as operations; `fuel` bounds their number. -/
def decodeWords : Nat → List Word → Except DecodeError (List Instr)
  | _, [] => .ok []
  | 0, _ :: _ => .error .noWord
  | fuel + 1, w :: ws =>
    match decode (w :: ws) with
    | .error e => .error e
    | .ok (i, rest) =>
      match decodeWords fuel rest with
      | .error e => .error e
      | .ok is => .ok (i :: is)

/-- A trace of words: one illegal word and the whole trace is refused (R114). -/
def runWords (ws : List Word) (s : State) : Result :=
  match decodeWords ws.length ws with
  | .error e => .refused (.badWord e)
  | .ok is => runOps is s

/-- One Clock pulse, low then high (R117). -/
def clkp : List Instr := [.cf, .cr]

/-- `m` Clock pulses (R117). -/
def clkps (m : Nat) : List Instr := (List.replicate m clkp).flatten

/-- `BURST m`: one read cycle with `m` clocks (R117). -/
def burst (m : Nat) : List Instr := .lf :: clkps m ++ [.lr]

/-- One line of a trace: an operation, or a pseudo-operation (R117). -/
inductive TraceItem where
  | op (i : Instr)
  | report (raw : List Byte)
  | clkp
  | latp
  | burst (m : Nat)
  | wait (k : Nat)
  | connect
  deriving DecidableEq, Repr

/-- REPORT: DEC, then, only if it did not fail, PROC of the values it wrote (R117, 60_exceptions.md R261). -/
def runReport (raw : List Byte) (s : State) : Result :=
  andThen (exec (.dec raw) s) fun t =>
    match t.failure with
    | some _ => .next t
    | none => exec (.proc t.gs.dp t.gs.ex) t

/-- Performs one line of a trace by its expansion (R117). -/
def TraceItem.run : TraceItem → State → Result
  | .op i => exec i
  | .report raw => runReport raw
  | .clkp => runOps Sys2Proof.Machine.clkp
  | .latp => runOps [.lf, .lr]
  | .burst m => runOps (Sys2Proof.Machine.burst m)
  | .wait k => exec (.tick k)
  | .connect => exec .rst

/-- Performs the lines of a trace in order (R116). -/
def runItems : List TraceItem → State → Result
  | [], s => .next s
  | i :: is, s => andThen (i.run s) (runItems is)

end Sys2Proof.Machine
end

