-- ==== Sys2Proof/Machine/Assembler.lean ====
section
/-! DEFINITION. The trace syntax, the assembler of the spec (30_encoding.md R116, R117), one line at a time. -/

namespace Sys2Proof.Machine

/-- What separates the tokens of a line: blanks, and the comma of `PROC dp, ex` (R116). -/
def isSeparator (c : Char) : Bool := c == ' ' || c == '\t' || c == ','

/-- The line without its comment: `;` begins one (R116). -/
def withoutComment (line : List Char) : List Char := line.takeWhile (· != ';')

/-- The tokens of a line, `acc` being the token so far, reversed. -/
def tokensFrom (acc : List Char) : List Char → List (List Char)
  | [] => if acc.isEmpty then [] else [acc.reverse]
  | c :: cs =>
    if isSeparator c then
      if acc.isEmpty then tokensFrom [] cs else acc.reverse :: tokensFrom [] cs
    else tokensFrom (c :: acc) cs

/-- The value of one digit in a base up to 16. -/
def digit? (base : Nat) (c : Char) : Option Nat :=
  let v :=
    if '0' ≤ c ∧ c ≤ '9' then c.toNat - '0'.toNat
    else if 'a' ≤ c ∧ c ≤ 'f' then c.toNat - 'a'.toNat + 10
    else if 'A' ≤ c ∧ c ≤ 'F' then c.toNat - 'A'.toNat + 10
    else 16
  if v < base then some v else none

/-- A string of digits, `acc` being the value so far. -/
def digits? (base acc : Nat) : List Char → Option Nat
  | [] => some acc
  | c :: cs =>
    match digit? base c with
    | none => none
    | some d => digits? base (acc * base + d) cs

/-- A number: decimal, or `0x` hexadecimal (R116). -/
def number? : List Char → Option Nat
  | [] => none
  | '0' :: 'x' :: c :: cs => digits? 16 0 (c :: cs)
  | cs => digits? 10 0 cs

/-- A number 0 to 255 as a byte (R116). -/
def byte? (n : Nat) : Option Byte := if n < 256 then some (BitVec.ofNat 8 n) else none

/-- The lines that take no operand (R116, R117). -/
def plainItems : List (List Char × TraceItem) :=
  [("LF".toList, .op .lf), ("LR".toList, .op .lr), ("CF".toList, .op .cf), ("CR".toList, .op .cr),
    ("EN".toList, .op .en), ("DIS".toList, .op .dis), ("DET".toList, .op .det), ("WCL".toList, .op .wcl),
    ("RST".toList, .op .rst), ("CLKP".toList, .clkp), ("LATP".toList, .latp), ("CONNECT".toList, .connect)]

/-- A line's item from its mnemonic and its numbers (R116, R117, with the operand range of 43_autodetector.md R234). -/
def itemOf? (m : List Char) (ns : List Nat) : Option TraceItem :=
  if m = "DEC".toList then (ns.mapM byte?).map fun raw => .op (.dec raw)
  else if m = "REPORT".toList then (ns.mapM byte?).map .report
  else match ns with
    | [] => plainItems.lookup m
    | [k] =>
      if m = "TICK".toList ∧ k < 2 ^ 24 then some (.op (.tick k))
      else if m = "WAIT".toList ∧ k < 2 ^ 24 then some (.wait k)
      else if m = "BURST".toList then some (.burst k)
      else none
    | [dp, ex] =>
      if m = "PROC".toList then
        match byte? dp, byte? ex with
        | some d, some e => some (.op (.proc d e))
        | _, _ => none
      else none
    | _ => none

/-- One line of a trace: no item for a blank or comment line; none where the line is not of the syntax. -/
def assembleLine (line : List Char) : Option (Option TraceItem) :=
  match tokensFrom [] (withoutComment line) with
  | [] => some none
  | m :: args =>
    match args.mapM number? with
    | none => none
    | some ns => (itemOf? m ns).map some

end Sys2Proof.Machine
end

