-- ==== Sys2Proof/Safety.lean ====
section
/-! DEFINITION. The terms claims are stated in: the invariant of the block, and when an operation is enabled. -/

namespace Sys2Proof.Machine

/-- The form of a button word: `w[9:8] = 0b11`, `w[7] = 0`, `w[15:10] = 0` (10_state.md R34). -/
abbrev ButtonWordForm (w : BitVec 16) : Prop :=
  w.extractLsb' 8 2 = 0b11#2 ∧ w.getLsbD 7 = false ∧ w.extractLsb' 10 6 = 0#6

/-- An enabled interrupt is on an input line, and LAT and CLK are configured alike (10_state.md R50). -/
abbrev State.InterruptsOnInputs (s : State) : Prop :=
  (s.lat.ie = true → s.lat.role = .inpu) ∧ (s.clk.ie = true → s.clk.role = .inpu) ∧
    s.lat.role = s.clk.role ∧ s.lat.ie = s.clk.ie

/-- LAT and CLK are inputs with their interrupts enabled. -/
abbrev State.Listening (s : State) : Prop :=
  s.lat.role = .inpu ∧ s.clk.role = .inpu ∧ s.lat.ie = true ∧ s.clk.ie = true

/-- LAT and CLK are outputs with their interrupts disabled. -/
abbrev State.Driving (s : State) : Prop :=
  s.lat.role = .out ∧ s.clk.role = .out ∧ s.lat.ie = false ∧ s.clk.ie = false

/-- Outside the window the lines follow the mode; inside it they are inputs (41_mode_controller.md R176). -/
abbrev State.LinesFollowMode (s : State) : Prop :=
  (s.dw.wa = false → (s.mode = .cd32 ↔ s.Listening) ∧ (s.mode = .normal ↔ s.Driving)) ∧
    (s.dw.wa = true → s.Listening)

/-- The Autodetector is in one of its three phases (10_state.md R40), and an open window is at most 100 ms old
(43_autodetector.md R232, R234). -/
abbrev State.WindowPhase (s : State) : Prop :=
  s.dw.wa = true → s.dw.dd = true ∧ elapsed s.ms s.dw.ws ≤ 100

/-- The invariant of the block: R34, R35, R50, R176, R40 with R234, and legal parameters (R33, R103). -/
structure State.Inv (s : State) : Prop where
  buttonWord : ButtonWordForm s.bw
  index : s.sh.idx ≤ 9#4
  interrupts : s.InterruptsOnInputs
  lines : s.LinesFollowMode
  window : s.WindowPhase
  params : s.par.Legal

/-- An operation is enabled at its place (30_encoding.md R118; for DEC also 40_report_decoder.md R142). -/
def enabled (i : Instr) (s : State) : Prop :=
  match i with
  | .lf => s.lat.ext = true
  | .lr => s.lat.ext = false
  | .cf => s.clk.ext = true
  | .cr => s.clk.ext = false
  | .proc _ _ => s.dw.wa = false
  | .en => s.dw.wa = false
  | .dis => s.dw.wa = false
  | .det => s.dw.wa = false
  | .wcl => s.dw.wa = true ∧ 100 ≤ elapsed s.ms s.dw.ws
  | .rst => s.dw.wa = false
  | .dec _ => s.dw.wa = false ∧ admitted s.cfg
  | .tick k => s.dw.wa = true → ∀ j < k, elapsed (s.ms + BitVec.ofNat 32 j) s.dw.ws < 100

end Sys2Proof.Machine
end

