-- ==== Sys2Proof/Certificates/Slice0/Obligations.lean ====
section
/-! DEFINITION. The statements for the provers, from the numbered rules of spec/. A rule that the spec itself marks
`[derived: …]` is its own inference from other rules; a statement of such a rule says so. -/

open Sys2Proof Sys2Proof.Machine

/-! ## Encoding (30_encoding.md part B) -/

/-- Sanity: words written out from 30_encoding.md R111 to R113 and 95_test_vectors.md decode to their operations. -/
def Obligations.TableWordsDecodeToTheirOperations : Prop :=
  ∀ ws : List Word,
    decode (0x00000000#32 :: ws) = .ok (.lf, ws) ∧ decode (0x01000000#32 :: ws) = .ok (.lr, ws) ∧
    decode (0x02000000#32 :: ws) = .ok (.cf, ws) ∧ decode (0x03000000#32 :: ws) = .ok (.cr, ws) ∧
    decode (0x10002152#32 :: ws) = .ok (.proc 0x52 0x21, ws) ∧
    decode (0x20000000#32 :: ws) = .ok (.en, ws) ∧ decode (0x21000000#32 :: ws) = .ok (.dis, ws) ∧
    decode (0x30000000#32 :: ws) = .ok (.det, ws) ∧ decode (0x31000000#32 :: ws) = .ok (.wcl, ws) ∧
    decode (0x32000000#32 :: ws) = .ok (.rst, ws) ∧ decode (0x500003E8#32 :: ws) = .ok (.tick 1000, ws) ∧
    decode (0x40000005#32 :: 0x281E140A#32 :: 0x00000032#32 :: ws) = .ok (.dec [0x0A, 0x14, 0x1E, 0x28, 0x32], ws)

/-- R111: every operand field is read as it stands, in formats P and T, and the byte count of format D. -/
def Obligations.OperandFieldsAreReadAsTheyStand : Prop :=
  (∀ (dp ex : Byte) (ws : List Word), decode ((0x10#8 ++ 0#8 ++ ex ++ dp) :: ws) = .ok (.proc dp ex, ws)) ∧
  (∀ (k : BitVec 24) (ws : List Word), decode ((0x50#8 ++ k) :: ws) = .ok (.tick k.toNat, ws)) ∧
  (∀ (n : Byte) (ws rest : List Word) (i : Instr), decode ((0x40#8 ++ 0#16 ++ n) :: ws) = .ok (i, rest) →
    ∃ raw, i = .dec raw ∧ raw.length = n.toNat ∧ ws.length = (n.toNat + 3) / 4 + rest.length)

/-- R110 to R113: decoding the words of a well-formed operation gives it back, and the words after it. -/
def Obligations.EncodeThenDecodeGivesTheOperation : Prop :=
  ∀ (i : Instr) (rest : List Word), i.wf = true → decode (encode i ++ rest) = .ok (i, rest)

/-- Each list of words has at most one reading, and it is the words of a well-formed operation (R110 to R114). For the
data words of a DEC this rests on two choices of the model, where the spec is silent and which it DEDUCED: an unused byte
that is not 0 is refused (notes/assumptions/4.md), and so is a DEC with too few data words (notes/assumptions/5.md). -/
def Obligations.DecodedWordsAreTheEncoding : Prop :=
  ∀ (ws rest : List Word) (i : Instr), decode ws = .ok (i, rest) → i.wf = true ∧ ws = encode i ++ rest

/-- R114: which words are illegal, that a step refuses one (the model's convention, notes/assumptions/3.md), and that
a trace containing one is refused as a whole. -/
def Obligations.IllegalWordsAreRefused : Prop :=
  (∀ (w : Word) (ws : List Word),
    (w.extractLsb' 24 8 ∉ [0x00#8, 0x01#8, 0x02#8, 0x03#8, 0x10#8, 0x20#8, 0x21#8, 0x30#8, 0x31#8, 0x32#8, 0x40#8,
        0x50#8] ∨
      (w.extractLsb' 24 8 ∈ [0x00#8, 0x01#8, 0x02#8, 0x03#8, 0x20#8, 0x21#8, 0x30#8, 0x31#8, 0x32#8] ∧
        w.extractLsb' 0 24 ≠ 0#24) ∨
      (w.extractLsb' 24 8 = 0x10#8 ∧ w.extractLsb' 16 8 ≠ 0#8) ∨
      (w.extractLsb' 24 8 = 0x40#8 ∧ w.extractLsb' 8 16 ≠ 0#16)) ↔
    decode (w :: ws) = .error (.illegalWord w)) ∧
  (∀ (s : State) (w : Word) (ws : List Word), s.trace = w :: ws → decode (w :: ws) = .error (.illegalWord w) →
    step s = .refused (.badWord (.illegalWord w))) ∧
  (∀ (is : List Instr) (w : Word) (ws : List Word) (s : State), (∀ i ∈ is, i.wf = true) →
    decode (w :: ws) = .error (.illegalWord w) →
    runWords ((is.map encode).flatten ++ w :: ws) s = .refused (.badWord (.illegalWord w)))

/-- R113: the report bytes follow the DEC word, four per word, little-endian, the unused positions 0. -/
def Obligations.ReportBytesArePackedLittleEndian : Prop :=
  ∀ raw : List Byte, raw.length ≤ 255 →
    (encode (.dec raw)).length = 1 + (raw.length + 3) / 4 ∧
    (encode (.dec raw))[0]? = some (0x40000000#32 + BitVec.ofNat 32 raw.length) ∧
    ∀ a < 4 * ((raw.length + 3) / 4), ∃ w : Word, (encode (.dec raw))[1 + a / 4]? = some w ∧
      w.extractLsb' (8 * (a % 4)) 8 = raw.getD a 0

/-- R116, R117: lines of a trace, with numbers in both bases, a comment, a blank line, a pseudo-operation and three
lines that are not of the syntax (separators and comments as in notes/assumptions/19.md). -/
def Obligations.TraceLinesAssemble : Prop :=
  assembleLine "PROC 0x12, 0".toList = some (some (.op (.proc 0x12 0x00))) ∧
  assembleLine "  DEC 255 0x7F 1 0 ; a report".toList = some (some (.op (.dec [0xFF, 0x7F, 0x01, 0x00]))) ∧
  assembleLine "DEC".toList = some (some (.op (.dec []))) ∧
  assembleLine "TICK 499".toList = some (some (.op (.tick 499))) ∧
  assembleLine "BURST 9".toList = some (some (.burst 9)) ∧
  assembleLine "LF".toList = some (some (.op .lf)) ∧
  assembleLine "; nothing".toList = some none ∧
  assembleLine "DEC 256".toList = none ∧ assembleLine "TICK".toList = none ∧ assembleLine "NOP".toList = none

/-! ## Steps and traces -/

/-- A step runs the operation that the next words of the trace decode to, on the state without those words; it idles
when the trace is empty and refuses words that are no operation (the model's own conventions, notes/assumptions/1.md
to 3.md). -/
def Obligations.StepRunsTheDecodedOperation : Prop :=
  (∀ (s : State) (i : Instr) (rest : List Word), decode s.trace = .ok (i, rest) →
    step s = exec i { s with trace := rest }) ∧
  (∀ s : State, s.trace = [] → step s = .next s) ∧
  (∀ (s : State) (e : DecodeError), s.trace ≠ [] → decode s.trace = .error e → step s = .refused (.badWord e))

/-- Running the words of a trace step by step performs its operations in order (R110; the trace is the model's own
field, notes/assumptions/1.md). -/
def Obligations.RunningTraceWordsPerformsTheOperations : Prop :=
  ∀ (is : List Instr) (rest : List Word) (s : State), (∀ i ∈ is, i.wf = true) →
    core.run is.length { s with trace := (is.map encode).flatten ++ rest } = runOps is { s with trace := rest }

/-- R118 (an inference the spec marks as derived): an operation has a step exactly when it is enabled at its place,
and is refused otherwise; with `CLK_FALL_IRQ` false a CF only changes `CLK.ext` (notes/assumptions/21.md). -/
def Obligations.OperationsRunExactlyWhenEnabled : Prop :=
  (∀ (i : Instr) (s : State), enabled i s → ∃ t, exec i s = .next t) ∧
  (∀ (i : Instr) (s : State), ¬ enabled i s → ∃ r, exec i s = .refused r) ∧
  (∀ s : State, s.par.clkFallIrq = false → s.clk.ext = true →
    exec .cf s = .next { s with clk := { s.clk with ext := false } })

/-- No operation writes the open parameters or the words still to come, and only a connection reset changes the layout
(10_state.md R31, R233 corner case b; the three fields are the model's, notes/assumptions/1.md, 6.md, 7.md). -/
def Obligations.ConfigurationOfTheRunIsKept : Prop :=
  ∀ (i : Instr) (s t : State), exec i s = .next t →
    t.par = s.par ∧ t.trace = s.trace ∧ (i ≠ .rst → t.cfg = s.cfg ∧ t.connections = s.connections)

/-! ## Reset and invariants (10_state.md) -/

/-- R55: the state after reset, for every open parameter, layout, host level and value of MS, and for every draw of
the three unspecified registers; `State.reset` is one of these states. -/
def Obligations.PowerOnRegisterValues : Prop :=
  (∀ (p : Params) (c : HidFieldConfig) (le ce : Level) (ms ws : Word) (lw : BitVec 16) (sv : BitVec 3) (s : State),
    s = State.powerOn p c le ce ms lw sv ws →
    s.gs.dp = 0#8 ∧ s.gs.ex = 0#8 ∧ s.bw = 0x0300#16 ∧ s.mode = .normal ∧ s.sh.idx = 0#4 ∧ s.sh.lw = lw ∧
    s.sh.sv = sv ∧ s.dw.pl = 0#16 ∧ s.dw.pc = 0#16 ∧ s.dw.wa = false ∧ s.dw.dd = false ∧ s.dw.lc = s.ms ∧ s.ms = ms ∧
    s.dw.ws = ws ∧ (∀ l, s.lineOut l = true) ∧ (∀ l, s.role l = .out) ∧ s.lat.ie = false ∧ s.clk.ie = false ∧
    s.lat.ext = le ∧ s.clk.ext = ce) ∧
  (∃ (p : Params) (c : HidFieldConfig) (le ce : Level) (ms ws : Word) (lw : BitVec 16) (sv : BitVec 3),
    State.reset = State.powerOn p c le ce ms lw sv ws)

/-- The state after reset meets the invariant, for every legal parameter and every draw. -/
def Obligations.PowerOnMeetsTheInvariant : Prop :=
  State.reset.Inv ∧
  ∀ (p : Params) (c : HidFieldConfig) (le ce : Level) (ms ws : Word) (lw : BitVec 16) (sv : BitVec 3), p.Legal →
    (State.powerOn p c le ce ms lw sv ws).Inv

/-- Every step keeps the invariant: the button word's form (R34), the index range (R35), interrupts on inputs only
(R50), lines that follow the mode (R176), the window's phase (R40, R234). -/
def Obligations.StepKeepsTheInvariant : Prop :=
  ∀ s t : State, s.Inv → step s = .next t → t.Inv

/-- R50 (an inference the spec marks as derived): an enabled interrupt is on an input, and LAT and CLK are configured
alike: true after reset, kept by every operation. -/
def Obligations.InterruptsOnlyOnInputs : Prop :=
  (∀ (p : Params) (c : HidFieldConfig) (le ce : Level) (ms ws : Word) (lw : BitVec 16) (sv : BitVec 3),
    (State.powerOn p c le ce ms lw sv ws).InterruptsOnInputs) ∧
  ∀ (i : Instr) (s t : State), s.InterruptsOnInputs → exec i s = .next t → t.InterruptsOnInputs

/-- R176 (an inference the spec marks as derived): outside the window the lines follow the mode, inside it they are
inputs: true after reset, kept by every operation. -/
def Obligations.LinesFollowTheMode : Prop :=
  (∀ (p : Params) (c : HidFieldConfig) (le ce : Level) (ms ws : Word) (lw : BitVec 16) (sv : BitVec 3),
    (State.powerOn p c le ce ms lw sv ws).LinesFollowMode) ∧
  ∀ (i : Instr) (s t : State), s.LinesFollowMode → exec i s = .next t → t.LinesFollowMode

/-- R34: PROC alone writes BW and gives it the fixed form; LF alone reads it: the outcome of any other operation is
the same for every value of BW, which it passes on. -/
def Obligations.ButtonWordHasOneWriterAndOneReader : Prop :=
  (∀ (i : Instr) (s t : State), exec i s = .next t →
    t.bw = s.bw ∨ ((∃ dp ex, i = .proc dp ex) ∧ ButtonWordForm t.bw)) ∧
  (∀ (i : Instr) (s : State) (w : BitVec 16), i ≠ .lf → (∀ dp ex, i ≠ .proc dp ex) →
    exec i { s with bw := w } = andThen (exec i s) fun t => .next { t with bw := w }) ∧
  (∀ (dp ex : Byte) (s : State) (w : BitVec 16), exec (.proc dp ex) { s with bw := w } = exec (.proc dp ex) s)

/-- R209, R35: no operation of the polling context or of the environment reads or writes the shift state. -/
def Obligations.ShiftStateIsPrivateToTheHandler : Prop :=
  ∀ (i : Instr) (s : State) (x : ShiftState), i.agent ≠ .handler →
    (exec i { s with sh := x } = andThen (exec i s) fun t => .next { t with sh := x }) ∧
    ∀ t, exec i s = .next t → t.sh = s.sh

/-- R209, R269: what a handler operation leaves alone: gamepad state, button word, mode, flags, stamps, roles,
enables, direction lines, MS; it counts only in the window, and outside it writes LAT's and CLK's latches only in LR.
-/
def Obligations.HandlerLeavesPollingStateAlone : Prop :=
  ∀ (i : Instr) (s t : State), i.agent = .handler → exec i s = .next t →
    t.gs = s.gs ∧ t.bw = s.bw ∧ t.mode = s.mode ∧ t.dir = s.dir ∧ t.ms = s.ms ∧ t.failure = s.failure ∧
    t.dw = { s.dw with pl := t.dw.pl, pc := t.dw.pc } ∧
    (s.dw.wa = false → t.dw = s.dw) ∧ (s.dw.wa = true → t.sh = s.sh ∧ t.dat = s.dat) ∧
    t.lat = { s.lat with olat := t.lat.olat, ext := t.lat.ext } ∧
    t.clk = { s.clk with olat := t.clk.olat, ext := t.clk.ext } ∧
    (i ≠ .lr → t.lat.olat = s.lat.olat ∧ t.clk.olat = s.clk.olat) ∧ (i = .cf → t.dat = s.dat ∧ t.sh = s.sh)

/-- R177: the mode changes only in the polling context, in EN, DIS, WCL or RST. -/
def Obligations.ModeChangesOnlyInThePollingContext : Prop :=
  ∀ (i : Instr) (s t : State), exec i s = .next t → t.mode ≠ s.mode →
    i.agent = .polling ∧ (i = .en ∨ i = .dis ∨ i = .wcl ∨ i = .rst)

/-- R301 (an inference the spec marks as derived): from a state with every latch high, both lines outputs and the
interrupts off (the state after reset is one), nothing but PROC, EN, or a DET that finds 500 ms elapsed changes a pad
latch or enables an interrupt. -/
def Obligations.NothingMovesBeforeProcEnOrDet : Prop :=
  (∀ (p : Params) (c : HidFieldConfig) (le ce : Level) (ms ws : Word) (lw : BitVec 16) (sv : BitVec 3) (s : State),
    s = State.powerOn p c le ce ms lw sv ws → (∀ l, s.lineOut l = true) ∧ s.Driving ∧ s.mode = .normal) ∧
  ∀ (i : Instr) (s t : State), (∀ l, s.lineOut l = true) → s.Driving → s.mode = .normal → s.dw.wa = false →
    exec i s = .next t → (∀ dp ex, i ≠ .proc dp ex) → i ≠ .en → (i = .det → elapsed s.ms s.dw.lc < 500) →
    (∀ l, t.lineOut l = true) ∧ t.Driving ∧ t.mode = .normal ∧ t.dw.wa = false

/-- R48: the pad shows the latch of an output and the host's level of an input; where the host pulls a driven line the
other way the model gives no level (notes/assumptions/15.md). -/
def Obligations.PadShowsLatchOrHostLevel : Prop :=
  ∀ s : State,
    (∀ i : Fin 4, s.pad (.dir i) = some (s.lineOut (.dir i))) ∧ s.pad .dat = some (s.lineOut .dat) ∧
    (∀ l : InLine, s.role l.line = .inpu → s.pad l.line = some (s.pin l).ext) ∧
    (∀ l : InLine, s.role l.line = .out → ((s.pin l).ext = true ∨ s.lineOut l.line = false) →
      s.pad l.line = some (s.lineOut l.line)) ∧
    (∀ l : InLine, s.role l.line = .out → (s.pin l).ext = false → s.lineOut l.line = true → s.pad l.line = none)

/-! ## The Shift Engine (42_shift_engine.md) -/

/-- R201: LF in every case: not enabled, not delivered, counted in the window, ignored in Normal mode, and its
protocol action in CD32 mode. -/
def Obligations.LatchFallingEdge : Prop :=
  encode .lf = [0x00000000#32] ∧ ∀ s : State,
    (s.lat.ext = false → exec .lf s = .refused (.noSuchEdge .lat)) ∧
    (s.lat.ext = true → s.lat.ie = false → exec .lf s = .next { s with lat := { s.lat with ext := false } }) ∧
    (s.lat.ext = true → s.lat.ie = true → s.dw.wa = true →
      exec .lf s = .next
        { s with lat := { s.lat with ext := false }, dw := { s.dw with pl := s.dw.pl + 1 } }) ∧
    (s.lat.ext = true → s.lat.ie = true → s.dw.wa = false → s.mode = .normal →
      exec .lf s = .next { s with lat := { s.lat with ext := false } }) ∧
    (s.lat.ext = true → s.lat.ie = true → s.dw.wa = false → s.mode = .cd32 → ∃ sv : BitVec 3,
      sv.getLsbD 0 = s.lat.olat ∧ sv.getLsbD 1 = s.clk.olat ∧ sv.getLsbD 2 = s.dat ∧
      exec .lf s = .next
        { s with lat := { s.lat with ext := false }, sh := { idx := 0, lw := s.bw, sv := sv }, dat := !s.bw.getLsbD 0 })

/-- R202: LR in every case; its protocol action restores the three saved levels. -/
def Obligations.LatchRisingEdge : Prop :=
  encode .lr = [0x01000000#32] ∧ ∀ s : State,
    (s.lat.ext = true → exec .lr s = .refused (.noSuchEdge .lat)) ∧
    (s.lat.ext = false → s.lat.ie = false → exec .lr s = .next { s with lat := { s.lat with ext := true } }) ∧
    (s.lat.ext = false → s.lat.ie = true → s.dw.wa = true →
      exec .lr s = .next
        { s with lat := { s.lat with ext := true }, dw := { s.dw with pl := s.dw.pl + 1 } }) ∧
    (s.lat.ext = false → s.lat.ie = true → s.dw.wa = false → s.mode = .normal →
      exec .lr s = .next { s with lat := { s.lat with ext := true } }) ∧
    (s.lat.ext = false → s.lat.ie = true → s.dw.wa = false → s.mode = .cd32 →
      exec .lr s = .next
        { s with lat := { s.lat with ext := true, olat := s.sh.sv.getLsbD 0 },
                 clk := { s.clk with olat := s.sh.sv.getLsbD 1 }, dat := s.sh.sv.getLsbD 2 })

/-- R203: CR in every case; its protocol action advances the index and drives that bit, and does nothing at index 9.
-/
def Obligations.ClockRisingEdge : Prop :=
  encode .cr = [0x03000000#32] ∧ ∀ s : State,
    (s.clk.ext = true → exec .cr s = .refused (.noSuchEdge .clk)) ∧
    (s.clk.ext = false → s.clk.ie = false → exec .cr s = .next { s with clk := { s.clk with ext := true } }) ∧
    (s.clk.ext = false → s.clk.ie = true → s.dw.wa = true →
      exec .cr s = .next
        { s with clk := { s.clk with ext := true }, dw := { s.dw with pc := s.dw.pc + 1 } }) ∧
    (s.clk.ext = false → s.clk.ie = true → s.dw.wa = false → s.mode = .normal →
      exec .cr s = .next { s with clk := { s.clk with ext := true } }) ∧
    (s.clk.ext = false → s.clk.ie = true → s.dw.wa = false → s.mode = .cd32 → 9 ≤ s.sh.idx.toNat →
      exec .cr s = .next { s with clk := { s.clk with ext := true } }) ∧
    (s.clk.ext = false → s.clk.ie = true → s.dw.wa = false → s.mode = .cd32 → s.sh.idx.toNat < 9 →
      exec .cr s = .next
        { s with clk := { s.clk with ext := true }, sh := { s.sh with idx := s.sh.idx + 1 },
                 dat := !s.sh.lw.getLsbD (s.sh.idx.toNat + 1) })

/-- R204: CF in every case; it counts in the window when `CLK_FALL_IRQ` is true, and otherwise only moves the line. -/
def Obligations.ClockFallingEdge : Prop :=
  encode .cf = [0x02000000#32] ∧ ∀ s : State,
    (s.clk.ext = false → exec .cf s = .refused (.noSuchEdge .clk)) ∧
    (s.clk.ext = true → s.par.clkFallIrq = true → s.clk.ie = true → s.dw.wa = true →
      exec .cf s = .next
        { s with clk := { s.clk with ext := false }, dw := { s.dw with pc := s.dw.pc + 1 } }) ∧
    (s.clk.ext = true → (s.par.clkFallIrq = false ∨ s.clk.ie = false ∨ s.dw.wa = false) →
      exec .cf s = .next { s with clk := { s.clk with ext := false } })

/-- R207 (an inference the spec marks as derived): after an acting LF that latched `w`, with CF, CR, EN, TICK, PROC and
DEC in any order after it, the `m` CR among them leave the index at `min m 9` and DAT at the complement of that bit; and
the plain clock pulses always run. An LR (it restores DAT) and a DET that does nothing are not among the operations. -/
def Obligations.ClocksShiftOutTheLatchedWord : Prop :=
  ∀ r s : State, r.lat.ext = true → r.lat.ie = true → r.clk.ie = true → r.dw.wa = false → r.mode = .cd32 →
    exec .lf r = .next s →
    (∀ (ops : List Instr) (t : State),
      (∀ i ∈ ops, i = .cf ∨ i = .cr ∨ i = .en ∨ (∃ k, i = .tick k) ∨ (∃ dp ex, i = .proc dp ex) ∨ ∃ raw, i = .dec raw) →
      runOps ops s = .next t →
      t.sh.idx.toNat = min (ops.count .cr) 9 ∧ t.dat = !r.bw.getLsbD (min (ops.count .cr) 9)) ∧
    (r.clk.ext = true → ∀ m, ∃ t, runOps (clkps m) s = .next t ∧ t.sh.idx.toNat = min m 9 ∧
      t.dat = !r.bw.getLsbD (min m 9))

/-- R205 (an inference the spec marks as derived): between an acting LF and the next LF, whatever else happens, the
word being shifted is the button word that the first one read, and every bit a CR drives is a bit of it. -/
def Obligations.LiveButtonWordIsNeverSeenMidBurst : Prop :=
  ∀ (r s t u : State) (ops : List Instr), r.lat.ie = true → r.dw.wa = false → r.mode = .cd32 → exec .lf r = .next s →
    .lf ∉ ops → runOps ops s = .next t → exec .cr t = .next u →
    t.sh.lw = r.bw ∧ s.dat = (!r.bw.getLsbD 0) ∧
    (u.sh.idx ≠ t.sh.idx → u.dat = !r.bw.getLsbD u.sh.idx.toNat) ∧ (u.sh.idx = t.sh.idx → u.dat = t.dat)

/-- R206 (an inference the spec marks as derived): a read cycle, with CF, CR, EN, TICK, PROC and DEC in any order inside
it, ends with DAT, LAT and CLK at the levels they had before it; a plain burst always runs. -/
def Obligations.ReadCycleRestoresTheIdleLevels : Prop :=
  ∀ r : State, r.lat.ext = true → r.lat.ie = true → r.clk.ie = true → r.dw.wa = false → r.mode = .cd32 →
    (∀ (ops : List Instr) (t : State),
      (∀ i ∈ ops, i = .cf ∨ i = .cr ∨ i = .en ∨ (∃ k, i = .tick k) ∨ (∃ dp ex, i = .proc dp ex) ∨ ∃ raw, i = .dec raw) →
      runOps (.lf :: ops ++ [.lr]) r = .next t →
      t.dat = r.dat ∧ t.lat.olat = r.lat.olat ∧ t.clk.olat = r.clk.olat ∧ t.mode = .cd32) ∧
    (r.clk.ext = true → ∀ m, ∃ t, runOps (burst m) r = .next t ∧ t.dat = r.dat)

/-- R208: of a Latch and a Clock edge that arrive together both orders are runs of the model, with the two outcomes
the rule gives. -/
def Obligations.SimultaneousEdgesRunInBothOrders : Prop :=
  ∀ s : State, s.lat.ext = true → s.clk.ext = false → s.lat.ie = true → s.clk.ie = true → s.dw.wa = false →
    s.mode = .cd32 →
    (∃ t, runOps [.lf, .cr] s = .next t ∧ t.sh.idx = 1 ∧ t.dat = !s.bw.getLsbD 1) ∧
    (∃ t, runOps [.cr, .lf] s = .next t ∧ t.sh.idx = 0 ∧ t.dat = !s.bw.getLsbD 0)

/-- R302 (an inference the spec marks as derived): DW.ws is written before it is read: while no window is open, its
value makes no difference to any later run, and is gone once a window has opened. -/
def Obligations.WaitStampIsWrittenBeforeItIsRead : Prop :=
  ∀ (ops : List Instr) (s : State) (x : Word), s.dw.wa = false →
    (∀ t, runOps ops s = .next t →
      runOps ops { s with dw := { s.dw with ws := x } } = .next t ∨
      (t.dw.wa = false ∧
        runOps ops { s with dw := { s.dw with ws := x } } = .next { t with dw := { t.dw with ws := x } })) ∧
    (∀ e, runOps ops s = .refused e → runOps ops { s with dw := { s.dw with ws := x } } = .refused e)

/-- R302, R313 (inferences the spec marks as derived): an acting LF forgets the shift state, so nothing after it
depends on the unspecified values. -/
def Obligations.LatchFallForgetsTheOldShiftState : Prop :=
  ∀ (s : State) (x : ShiftState) (ops : List Instr), s.lat.ext = true → s.lat.ie = true → s.dw.wa = false →
    s.mode = .cd32 → runOps (.lf :: ops) { s with sh := x } = runOps (.lf :: ops) s

/-! ## The Mode Controller (41_mode_controller.md) -/

/-- R174: the remap as a sum of button bits, its range, and the bits that do not affect it. -/
def Obligations.RemapFollowsTheTable : Prop :=
  ∀ dp ex : Byte,
    (remap dp ex).toNat = 0x0300 + (dp.getLsbD 5).toNat + 2 * (dp.getLsbD 6).toNat + 4 * (dp.getLsbD 4).toNat +
      8 * (dp.getLsbD 7).toNat + 16 * (ex.getLsbD 1).toNat + 32 * (ex.getLsbD 0).toNat +
      64 * (ex.getLsbD 4 || ex.getLsbD 5).toNat ∧
    0x0300 ≤ (remap dp ex).toNat ∧ (remap dp ex).toNat ≤ 0x037F ∧
    remap (dp &&& 0xF0) (ex &&& 0x33) = remap dp ex

/-- R171: PROC refused while the window is open; otherwise the direction lines, the button word, the dual-purpose
lines in Normal mode only, and nothing else; a second PROC with the same operands changes nothing. -/
def Obligations.ProcDrivesTheLines : Prop :=
  ∀ (dp ex : Byte) (s : State), s.par.Legal →
    (s.dw.wa = true → exec (.proc dp ex) s = .refused .pollingBusy) ∧
    (s.dw.wa = false → ∃ t, exec (.proc dp ex) s = .next t ∧
      (∀ i : Fin 4, t.lineOut (.dir i) = !dp.getLsbD i) ∧ t.bw = remap dp ex ∧
      (s.mode = .normal → t.lineOut (dualLine s.par.btnLine.b4) = (!dp.getLsbD 4) ∧
        t.lineOut (dualLine s.par.btnLine.b5) = (!dp.getLsbD 5) ∧
        t.lineOut (dualLine s.par.btnLine.b6) = !dp.getLsbD 6) ∧
      (s.mode = .cd32 → t.lat = s.lat ∧ t.clk = s.clk ∧ t.dat = s.dat) ∧
      t = { s with dir := t.dir, bw := t.bw, lat := { s.lat with olat := t.lat.olat },
                   clk := { s.clk with olat := t.clk.olat }, dat := t.dat } ∧
      exec (.proc dp ex) t = .next t)

/-- R82 (an inference the spec marks as derived); notes/assumptions/12.md: a handler operation that falls between two
groups of a PROC gives the registers that it gives before the PROC or after it. -/
def Obligations.ProcIsAtomicForTheRegisters : Prop :=
  ∀ (h : Instr) (dp ex : Byte) (s : State), h.agent = .handler → s.dw.wa = false →
    andThen (exec h (procDirections dp s)) (fun t => .next (procButtons dp (procWord dp ex t))) =
      andThen (exec h s) (exec (.proc dp ex)) ∧
    andThen (exec h (procWord dp ex (procDirections dp s))) (fun t => .next (procButtons dp t)) =
      andThen (exec (.proc dp ex) s) (exec h)

/-- R172: EN refused while the window is open; otherwise its five writes and nothing else. -/
def Obligations.EnableCd32Mode : Prop :=
  encode .en = [0x20000000#32] ∧ ∀ s : State,
    (s.dw.wa = true → exec .en s = .refused .pollingBusy) ∧
    (s.dw.wa = false → exec .en s = .next
      { s with mode := .cd32, lat := { s.lat with role := .inpu, ie := true },
               clk := { s.clk with role := .inpu, ie := true } })

/-- R173: DIS refused while the window is open, a no-op when the whole Normal-mode configuration is in place,
otherwise its seven writes and nothing else. -/
def Obligations.DisableCd32Mode : Prop :=
  encode .dis = [0x21000000#32] ∧ ∀ s : State,
    (s.dw.wa = true → exec .dis s = .refused .pollingBusy) ∧
    (s.dw.wa = false → s.mode = .normal → s.lat.role = .out → s.clk.role = .out → exec .dis s = .next s) ∧
    (s.dw.wa = false → (s.mode = .cd32 ∨ s.lat.role = .inpu ∨ s.clk.role = .inpu) → exec .dis s = .next
      { s with mode := .normal, lat := { s.lat with olat := true, role := .out, ie := false },
               clk := { s.clk with olat := true, role := .out, ie := false } })

/-- R175 (an inference the spec marks as derived): EN twice is EN once, DIS twice is DIS once. -/
def Obligations.EnableAndDisableAreIdempotent : Prop :=
  ∀ s : State, s.dw.wa = false →
    (∃ t, exec .en s = .next t ∧ runOps [.en, .en] s = .next t) ∧
    (∃ t, exec .dis s = .next t ∧ runOps [.dis, .dis] s = .next t)

/-! ## The Autodetector and the tick (43_autodetector.md) -/

/-- R231: DET in every case: refused in the window, a no-op once detection is done or before 500 ms, else it opens the
window. -/
def Obligations.DetectionPollOpensTheWindow : Prop :=
  encode .det = [0x30000000#32] ∧ ∀ s : State,
    (s.dw.wa = true → exec .det s = .refused .pollingBusy) ∧
    (s.dw.wa = false → (s.dw.dd = true ∨ (s.ms - s.dw.lc).toNat < 500) → exec .det s = .next s) ∧
    (s.dw.wa = false → s.dw.dd = false → 500 ≤ (s.ms - s.dw.lc).toNat → exec .det s = .next
      { s with dw := { pl := 0, pc := 0, wa := true, dd := true, lc := s.dw.lc, ws := s.ms },
               lat := { s.lat with role := .inpu, ie := true }, clk := { s.clk with role := .inpu, ie := true } })

/-- R232: WCL refused outside the window or before 100 ms; otherwise it closes the window and performs EN when both
counters are at least 5, DIS when not; and in every state that meets the invariant it closes with exactly 100 ms
elapsed. -/
def Obligations.WindowCloseDecidesTheMode : Prop :=
  encode .wcl = [0x31000000#32] ∧ ∀ s : State,
    (s.dw.wa = false → exec .wcl s = .refused .windowNotOpen) ∧
    (s.dw.wa = true → (s.ms - s.dw.ws).toNat < 100 → exec .wcl s = .refused .waitNotOver) ∧
    (s.dw.wa = true → 100 ≤ (s.ms - s.dw.ws).toNat →
      (∃ t, exec .wcl s = .next t) ∧
      exec .wcl s = exec (if 5 ≤ s.dw.pl.toNat ∧ 5 ≤ s.dw.pc.toNat then .en else .dis)
        { s with dw := { s.dw with wa := false } }) ∧
    (s.Inv → ∀ t, exec .wcl s = .next t → (s.ms - s.dw.ws).toNat = 100)

/-- R233: RST refused in the window; otherwise it clears the detection record, stamps the connection, performs DIS,
and takes the new connection's layout when the USB layer supplies one (the model's list of layouts,
notes/assumptions/7.md). -/
def Obligations.ConnectionResetClearsDetection : Prop :=
  encode .rst = [0x32000000#32] ∧ ∀ s : State,
    (s.dw.wa = true → exec .rst s = .refused .pollingBusy) ∧
    (s.dw.wa = false → ∃ t u, exec .rst s = .next t ∧
      exec .dis { s with dw := { pl := 0, pc := 0, wa := false, dd := false, lc := s.ms, ws := s.dw.ws } } = .next u ∧
      t = { u with cfg := s.connections.headD s.cfg, connections := s.connections.tail })

/-- R234, R115: a TICK of `k` is `k` single ticks in a row, whether it runs or is refused; a single tick adds 1 to MS
unless the window is open and 100 ms have passed; `TICK 0` does nothing. -/
def Obligations.TickIsManySingleTicks : Prop :=
  (∀ (k : Nat) (s : State), exec (.tick k) s = manyTicks k s) ∧
  (∀ s : State, singleTick s =
    if s.dw.wa = true ∧ 100 ≤ (s.ms - s.dw.ws).toNat then .refused .timeHeld else .next { s with ms := s.ms + 1 }) ∧
  (encode (.tick 0) = [0x50000000#32] ∧ ∀ s : State, exec (.tick 0) s = .next s) ∧
  (∀ (k : Nat) (s : State), s.dw.wa = false → exec (.tick k) s = .next { s with ms := s.ms + BitVec.ofNat 32 k })

/-- R53 (an inference the spec marks as derived): while the window is open the polling context has no operation but
WCL. -/
def Obligations.OpenWindowBlocksThePollingContext : Prop :=
  ∀ (i : Instr) (s : State), s.dw.wa = true → i.agent = .polling → i ≠ .wcl → exec i s = .refused .pollingBusy

/-- R235 (an inference the spec marks as derived): once a DET has opened a window, no later DET does anything until an
RST. -/
def Obligations.DetectionRunsOncePerConnection : Prop :=
  ∀ (ops : List Instr) (s₁ s₂ s₃ s₄ : State), exec .det s₁ = .next s₂ → s₁.dw.wa = false → s₂.dw.wa = true →
    .rst ∉ ops → runOps ops s₂ = .next s₃ → exec .det s₃ = .next s₄ → s₄ = s₃

/-- R237 (an inference the spec marks as derived): what one read cycle of `m` clocks adds to the counters in the
window, under both values of `CLK_FALL_IRQ`, and what the decision needs. -/
def Obligations.ReadCycleCountsInTheWindow : Prop :=
  (∀ (m : Nat) (s : State), s.dw.wa = true → s.lat.ie = true → s.clk.ie = true → s.lat.ext = true → s.clk.ext = true →
    runOps (burst m) s = .next
      { s with dw := { s.dw with
                pl := s.dw.pl + 2, pc := s.dw.pc + BitVec.ofNat 16 (if s.par.clkFallIrq then 2 * m else m) } }) ∧
  (∀ s t : State, exec .wcl s = .next t → (t.mode = .cd32 ↔ 5 ≤ s.dw.pl.toNat ∧ 5 ≤ s.dw.pc.toNat))

/-- R231, R232, R234 and R237 (R237 an inference the spec marks as derived): a whole detection with `n` host polls of
one Latch and one Clock pulse each: CD32 mode from 3 polls on when the falling Clock edge interrupts, from 5 on when it
does not, else Normal mode. -/
def Obligations.DetectionSelectsCd32FromEnoughPolls : Prop :=
  ∀ (n : Nat) (s : State), n < 2 ^ 15 → s.dw.wa = false → s.dw.dd = false → 500 ≤ (s.ms - s.dw.lc).toNat →
    s.lat.ext = true → s.clk.ext = true →
    ∃ t, runOps (.det :: (List.replicate n (burst 1)).flatten ++ [.tick 100, .wcl]) s = .next t ∧
      t.dw.wa = false ∧ t.dw.dd = true ∧ t.ms = s.ms + 100 ∧ t.sh = s.sh ∧ t.dat = s.dat ∧
      (t.mode = .cd32 ↔ (if s.par.clkFallIrq then 3 else 5) ≤ n) ∧
      (t.mode = .cd32 → t.Listening) ∧ (t.mode = .normal → t.Driving ∧ t.lat.olat = true ∧ t.clk.olat = true)

/-! ## The Report Decoder (40_report_decoder.md) -/

/-- R71: the payload is the report without its first byte when a report ID is present. -/
def Obligations.PayloadSkipsTheReportId : Prop :=
  ∀ (c : HidFieldConfig) (raw : List Byte),
    (c.reportIdPresent = true → (payload c raw).length = raw.length - 1 ∧
      ∀ a, a + 1 < raw.length → memRead (payload c raw) a = raw.getD (a + 1) 0) ∧
    (c.reportIdPresent = false → (payload c raw).length = raw.length ∧
      ∀ a, a < raw.length → memRead (payload c raw) a = raw.getD a 0)

/-- R143, R73: a field is the sum of its bits, least significant first and little-endian across bytes. -/
def Obligations.FieldReadsItsBitsLeastSignificantFirst : Prop :=
  ∀ (p : List Byte) (off size : Nat),
    field p off size < 2 ^ size ∧
    (∀ i < size, (field p off size).testBit i = (memRead p ((off + i) / 8)).getLsbD ((off + i) % 8)) ∧
    field p off size =
      ((List.range size).map fun i => (memRead p ((off + i) / 8)).toNat / 2 ^ ((off + i) % 8) % 2 * 2 ^ i).sum

/-- R141: the three forms of condition 4 are the same condition. -/
def Obligations.AdmittedAxisConditionsAgree : Prop :=
  ∀ a : AxisField,
    (0 < axisHalf a - axisDz a ↔ 1 ≤ axisHalf a) ∧ (1 ≤ axisHalf a ↔ 2 ≤ a.logicalMax - iabs a.logicalMin)

/-- R145 (an inference the spec marks as derived): the signed branch is never taken for an admitted axis, since a
reversed range has no positive half range. -/
def Obligations.SignedBranchIsUnreachable : Prop :=
  ∀ (a : AxisField) (u : Nat),
    (0 < axisHalf a - axisDz a → ¬ a.logicalMin > a.logicalMax ∧ axisRaw u a = u) ∧
    (a.logicalMin > a.logicalMax → axisHalf a ≤ 0)

/-- R146 (an inference the spec marks as derived): the laws of the normalization for an admitted axis with a minimum
that is not negative. -/
def Obligations.NormalizationLaws : Prop :=
  (∀ a : AxisField, 0 < axisHalf a - axisDz a → 0 ≤ a.logicalMin →
    (∀ u : Nat, (u : Int) = axisMid a → axisNorm u a = 127) ∧
    (∀ u : Nat, iabs (u - axisMid a) ≤ axisDz a → axisNorm u a = 127) ∧
    (∀ u : Nat, (u : Int) ≤ a.logicalMin → axisNorm u a = 0) ∧
    (∀ u : Nat, a.logicalMax ≤ u → axisNorm u a = 254) ∧
    (∀ u v : Nat, u ≤ v → axisNorm u a ≤ axisNorm v a)) ∧
  (∀ (d : DirBit) (x y : Int), [d.left, d.right, d.up, d.down].Nodup →
    (directionBits d x y).getLsbD d.left = decide (x < 64) ∧ (directionBits d x y).getLsbD d.right = decide (x > 192) ∧
    (directionBits d x y).getLsbD d.up = decide (y < 64) ∧ (directionBits d x y).getLsbD d.down = decide (y > 192))

/-- R144: the normalized value of any axis lies in 0 to 254 ("the value 255 is never produced"). -/
def Obligations.NormalizedAxisIsBelow255 : Prop :=
  ∀ (a : AxisField) (u : Nat), 0 ≤ axisNorm u a ∧ axisNorm u a ≤ 254

/-- R147 (an inference the spec marks as derived): the worked values of the two ranges. -/
def Obligations.NormalizationWorkedValues : Prop :=
  ([0, 1, 2, 3, 61, 62, 63, 64, 124, 125, 126, 127, 128, 129, 130, 131, 191, 192, 193, 194, 195, 253, 254, 255].map
      fun u => axisNorm u { bitOffset := 0, bitSize := 8, logicalMin := 0, logicalMax := 255 }) =
    [0, 2, 3, 4, 62, 63, 65, 66, 126, 127, 127, 127, 127, 127, 128, 129, 189, 191, 192, 193, 194, 252, 254, 254] ∧
  ([0, 255, 511, 519, 520, 767, 770, 775, 1023].map
      fun u => axisNorm u { bitOffset := 0, bitSize := 10, logicalMin := 0, logicalMax := 1023 }) =
    [0, 65, 127, 127, 127, 189, 190, 191, 254] ∧
  ∀ u < 256,
    (axisNorm u { bitOffset := 0, bitSize := 8, logicalMin := 0, logicalMax := 255 } < 64 ↔ u ≤ 62) ∧
    (axisNorm u { bitOffset := 0, bitSize := 8, logicalMin := 0, logicalMax := 255 } > 192 ↔ 194 ≤ u)

/-- R142: DEC in every case: refused in the window or under a layout that breaks R141, the two failures in their
order, and on success the bits of GS from the axes and the buttons, and nothing else written (`failure` is the model's
field for the returned value, notes/assumptions/10.md). -/
def Obligations.DecodeWritesTheGamepadState : Prop :=
  ∀ (raw : List Byte) (s : State), s.par.Legal →
    (s.dw.wa = true → exec (.dec raw) s = .refused .pollingBusy) ∧
    (s.dw.wa = false → ¬ admitted s.cfg → exec (.dec raw) s = .refused .malformedConfig) ∧
    (s.dw.wa = false → admitted s.cfg → raw = [] → exec (.dec raw) s = .next { s with failure := some .emptyReport }) ∧
    (s.dw.wa = false → admitted s.cfg → raw ≠ [] → raw.length < s.cfg.reportLength →
      exec (.dec raw) s = .next { s with failure := some .shortRead }) ∧
    (s.dw.wa = false → admitted s.cfg → raw ≠ [] → s.cfg.reportLength ≤ raw.length →
      ∃ g : GamepadState, exec (.dec raw) s = .next { s with gs := g, failure := none } ∧
        g.dp.getLsbD s.par.dirBit.left = decide (axisValue (payload s.cfg raw) s.cfg.axis0 < 64) ∧
        g.dp.getLsbD s.par.dirBit.right = decide (axisValue (payload s.cfg raw) s.cfg.axis0 > 192) ∧
        g.dp.getLsbD s.par.dirBit.up = decide (axisValue (payload s.cfg raw) s.cfg.axis1 < 64) ∧
        g.dp.getLsbD s.par.dirBit.down = decide (axisValue (payload s.cfg raw) s.cfg.axis1 > 192) ∧
        ∀ b : Fin 12, (if b.val ≤ 3 then g.dp.getLsbD (4 + b.val) else g.ex.getLsbD (b.val - 4)) =
          decide (memRead (payload s.cfg raw) s.cfg.button[b].byteOffset &&& s.cfg.button[b].bitmask ≠ 0))

/-- R260: exactly two failures with their codes, raised by DEC and by nothing else (the returned value stands in the
model's field `failure`, notes/assumptions/10.md). -/
def Obligations.OnlyDecodeFails : Prop :=
  DecodeFailure.emptyReport.code = 1 ∧ DecodeFailure.shortRead.code = 2 ∧
  (∀ (i : Instr) (s t : State), exec i s = .next t → t.failure ≠ s.failure → ∃ raw, i = .dec raw) ∧
  (∀ (raw : List Byte) (s t : State), exec (.dec raw) s = .next t →
    (t.failure = some .emptyReport ↔ raw.length = 0) ∧
    (t.failure = some .shortRead ↔ 0 < raw.length ∧ raw.length < s.cfg.reportLength)) ∧
  (∀ (i : Instr) (s : State) (e : Fault), exec i s ≠ .fault e)

/-- R142 corner case c: both direction bits of one axis are never set together. -/
def Obligations.OppositeDirectionsExclude : Prop :=
  ∀ (raw : List Byte) (s t : State), s.par.Legal → exec (.dec raw) s = .next t → t.failure = none →
    (t.gs.dp.getLsbD s.par.dirBit.left && t.gs.dp.getLsbD s.par.dirBit.right) = false ∧
    (t.gs.dp.getLsbD s.par.dirBit.up && t.gs.dp.getLsbD s.par.dirBit.down) = false

/-- R106, R142 corner cases a and f, R72: under an admitted layout, bytes beyond the configured length and the report
ID make no difference to a DEC, so it reads no byte outside the payload. -/
def Obligations.BytesOutsideThePayloadAreIgnored : Prop :=
  ∀ (raw raw' : List Byte) (s : State), raw ≠ [] → raw' ≠ [] → s.cfg.reportLength ≤ raw.length →
    s.cfg.reportLength ≤ raw'.length →
    (∀ a, skip s.cfg ≤ a → a < s.cfg.reportLength → raw[a]? = raw'[a]?) →
    exec (.dec raw) s = exec (.dec raw') s

/-- R261, R117: a REPORT whose DEC fails changes nothing but the returned value, so lines and button word stay; one
whose DEC succeeds performs PROC on the values just written. -/
def Obligations.FailedReportKeepsThePublishedState : Prop :=
  ∀ (raw : List Byte) (s : State), s.dw.wa = false → admitted s.cfg →
    (raw.length < s.cfg.reportLength ∨ raw = [] → ∃ e, runReport raw s = .next { s with failure := some e }) ∧
    (s.cfg.reportLength ≤ raw.length → raw ≠ [] →
      ∃ g : GamepadState, exec (.dec raw) s = .next { s with gs := g, failure := none } ∧
        runReport raw s = exec (.proc g.dp g.ex) { s with gs := g, failure := none } ∧ ∃ t, runReport raw s = .next t)

/-- S8 of 95_test_vectors.md, by R142, R146 (which the spec marks as derived), R171: axis 0 at its maximum, axis 1 neutral, button 0 alone pressed,
Normal mode: the right direction line and button 0's line are low, every other line high. -/
def Obligations.RightAndButtonZeroDriveTwoLinesLow : Prop :=
  ∀ (raw : List Byte) (s : State), s.dw.wa = false → s.mode = .normal → s.par.Legal → admitted s.cfg →
    0 ≤ s.cfg.axis0.logicalMin → raw ≠ [] → s.cfg.reportLength ≤ raw.length →
    s.cfg.axis0.logicalMax ≤ field (payload s.cfg raw) s.cfg.axis0.bitOffset s.cfg.axis0.bitSize →
    64 ≤ axisValue (payload s.cfg raw) s.cfg.axis1 → axisValue (payload s.cfg raw) s.cfg.axis1 ≤ 192 →
    (∀ b : Fin 12, pressed (payload s.cfg raw) s.cfg b = decide (b = 0)) →
    ∃ t, runReport raw s = .next t ∧
      ∀ l : Line, t.lineOut l = decide (l ≠ .dir s.par.dirBit.right ∧ l ≠ dualLine s.par.btnLine.b4)
end

