-- ==== Sys2Proof/Laws/Decode.lean ====
section
/-! SUPPORT. The bits of an operation word: what each field accessor gives of a word built from its fields, and that a
word is built from its fields. -/

namespace Sys2Proof

theorem getLsbD_headWord (op : BitVec 8) (x : BitVec 24) (i : Nat) :
    (headWord op x).getLsbD i = if i < 24 then x.getLsbD i else op.getLsbD (i - 24) := BitVec.getLsbD_append

theorem getLsbD_wordOfBytes (b3 b2 b1 b0 : Byte) (i : Nat) :
    (wordOfBytes b3 b2 b1 b0).getLsbD i =
      if i < 8 then b0.getLsbD i
      else if i < 16 then b1.getLsbD (i - 8)
      else if i < 24 then b2.getLsbD (i - 16)
      else b3.getLsbD (i - 24) := by
  have h2 (k : Nat) : (b3 ++ b2).getLsbD k = if k < 8 then b2.getLsbD k else b3.getLsbD (k - 8) :=
    BitVec.getLsbD_append
  have h1 (k : Nat) : (b3 ++ b2 ++ b1).getLsbD k = if k < 8 then b1.getLsbD k else (b3 ++ b2).getLsbD (k - 8) :=
    BitVec.getLsbD_append
  have h0 : (wordOfBytes b3 b2 b1 b0).getLsbD i =
      if i < 8 then b0.getLsbD i else (b3 ++ b2 ++ b1).getLsbD (i - 8) := BitVec.getLsbD_append
  rw [h0, h1, h2]
  split
  · rfl
  · have e1 : i - 8 - 8 = i - 16 := by omega
    have e2 : i - 8 - 8 - 8 = i - 24 := by omega
    rw [e2, e1]
    by_cases h16 : i < 16
    · rw [if_pos (by omega), if_pos h16]
    · rw [if_neg (by omega), if_neg h16]
      by_cases h24 : i < 24
      · rw [if_pos (by omega), if_pos h24]
      · rw [if_neg (by omega), if_neg h24]

theorem getLsbD_byteOf (w : Word) (j i : Nat) : (byteOf w j).getLsbD i = (decide (i < 8) && w.getLsbD (8 * j + i)) :=
  BitVec.getLsbD_extractLsb' ..

theorem getLsbD_operandOf (w : Word) (i : Nat) : (operandOf w).getLsbD i = (decide (i < 24) && w.getLsbD i) := by
  simp [operandOf]

theorem getLsbD_opcodeOf (w : Word) (i : Nat) : (opcodeOf w).getLsbD i = (decide (i < 8) && w.getLsbD (24 + i)) := by
  simp [opcodeOf]

/-- The opcode is the most significant byte (30_encoding.md R110). -/
theorem opcodeOf_eq_byteOf (w : Word) : opcodeOf w = byteOf w 3 := rfl

@[simp] theorem opcodeOf_headWord (op : BitVec 8) (x : BitVec 24) : opcodeOf (headWord op x) = op := by
  refine BitVec.eq_of_getLsbD_eq fun i hi => ?_
  rw [getLsbD_opcodeOf, getLsbD_headWord, if_neg (by omega)]
  simp [hi]

@[simp] theorem operandOf_headWord (op : BitVec 8) (x : BitVec 24) : operandOf (headWord op x) = x := by
  refine BitVec.eq_of_getLsbD_eq fun i hi => ?_
  rw [getLsbD_operandOf, getLsbD_headWord, if_pos hi]
  simp [hi]

@[simp] theorem byteOf_wordOfBytes_0 (b3 b2 b1 b0 : Byte) : byteOf (wordOfBytes b3 b2 b1 b0) 0 = b0 := by
  refine BitVec.eq_of_getLsbD_eq fun i hi => ?_
  rw [getLsbD_byteOf, getLsbD_wordOfBytes, if_pos (by omega)]
  simp [hi]

@[simp] theorem byteOf_wordOfBytes_1 (b3 b2 b1 b0 : Byte) : byteOf (wordOfBytes b3 b2 b1 b0) 1 = b1 := by
  refine BitVec.eq_of_getLsbD_eq fun i hi => ?_
  rw [getLsbD_byteOf, getLsbD_wordOfBytes, if_neg (by omega), if_pos (by omega)]
  simp [hi]

@[simp] theorem byteOf_wordOfBytes_2 (b3 b2 b1 b0 : Byte) : byteOf (wordOfBytes b3 b2 b1 b0) 2 = b2 := by
  refine BitVec.eq_of_getLsbD_eq fun i hi => ?_
  rw [getLsbD_byteOf, getLsbD_wordOfBytes, if_neg (by omega), if_neg (by omega), if_pos (by omega)]
  simp [hi]

@[simp] theorem byteOf_wordOfBytes_3 (b3 b2 b1 b0 : Byte) : byteOf (wordOfBytes b3 b2 b1 b0) 3 = b3 := by
  refine BitVec.eq_of_getLsbD_eq fun i hi => ?_
  rw [getLsbD_byteOf, getLsbD_wordOfBytes, if_neg (by omega), if_neg (by omega), if_neg (by omega)]
  simp [hi]

/-- A word is its opcode and its operand field. -/
theorem headWord_eta (w : Word) : headWord (opcodeOf w) (operandOf w) = w := by
  refine BitVec.eq_of_getLsbD_eq fun i hi => ?_
  rw [getLsbD_headWord, getLsbD_opcodeOf, getLsbD_operandOf]
  split
  · simp [*]
  · have e : 24 + (i - 24) = i := by omega
    rw [e]
    simp [show i - 24 < 8 by omega]

/-- A word is its four bytes. -/
theorem wordOfBytes_eta (w : Word) : wordOfBytes (byteOf w 3) (byteOf w 2) (byteOf w 1) (byteOf w 0) = w := by
  refine BitVec.eq_of_getLsbD_eq fun i hi => ?_
  simp only [getLsbD_wordOfBytes, getLsbD_byteOf]
  split
  · simp [*]
  · split
    · rw [show 8 * 1 + (i - 8) = i by omega]
      simp [show i - 8 < 8 by omega]
    · split
      · rw [show 8 * 2 + (i - 16) = i by omega]
        simp [show i - 16 < 8 by omega]
      · rw [show 8 * 3 + (i - 24) = i by omega]
        simp [show i - 24 < 8 by omega]

/-- The operand field is 0 exactly when its three bytes are. -/
theorem operandOf_eq_zero (w : Word) : operandOf w = 0 ↔ byteOf w 0 = 0 ∧ byteOf w 1 = 0 ∧ byteOf w 2 = 0 := by
  constructor
  · intro h
    have hb (k : Nat) (hk : k < 24) : w.getLsbD k = false := by
      have hz : (operandOf w).getLsbD k = false := by rw [h]; exact BitVec.getLsbD_zero
      rwa [getLsbD_operandOf, decide_eq_true hk, Bool.true_and] at hz
    refine ⟨?_, ?_, ?_⟩ <;>
      (refine BitVec.eq_of_getLsbD_eq fun i hi => ?_; rw [getLsbD_byteOf, hb _ (by omega), Bool.and_false]
       exact BitVec.getLsbD_zero.symm)
  · rintro ⟨h0, h1, h2⟩
    have hb (j i : Nat) (hj : byteOf w j = 0) (hi : i < 8) : w.getLsbD (8 * j + i) = false := by
      have hz : (byteOf w j).getLsbD i = false := by rw [hj]; exact BitVec.getLsbD_zero
      rwa [getLsbD_byteOf, decide_eq_true hi, Bool.true_and] at hz
    refine BitVec.eq_of_getLsbD_eq fun i hi => ?_
    have hw : w.getLsbD i = false := by
      rcases Nat.lt_or_ge i 8 with h | h
      · simpa using hb 0 i h0 h
      · rcases Nat.lt_or_ge i 16 with h' | h'
        · simpa only [show 8 * 1 + (i - 8) = i by omega] using hb 1 (i - 8) h1 (by omega)
        · simpa only [show 8 * 2 + (i - 16) = i by omega] using hb 2 (i - 16) h2 (by omega)
    rw [getLsbD_operandOf, hw, Bool.and_false]
    exact BitVec.getLsbD_zero.symm

/-- Unpacking the packed bytes gives them back (R113). -/
theorem unpackBytes_packBytes : ∀ (raw : List Byte) (rest : List Word),
    unpackBytes raw.length (packBytes raw ++ rest) = .ok (raw, rest)
  | [], rest => by cases rest <;> rfl
  | [a], rest => by simp [packBytes, unpackBytes]
  | [a, b], rest => by simp [packBytes, unpackBytes]
  | [a, b, c], rest => by simp [packBytes, unpackBytes]
  | a :: b :: c :: d :: raw, rest => by
    have ih := unpackBytes_packBytes raw rest
    simp [packBytes, unpackBytes, ih]

/-- What unpacking reads is `n` bytes, packed (R113). -/
theorem unpackBytes_eq_ok : ∀ (n : Nat) (ws rest : List Word) (raw : List Byte),
    unpackBytes n ws = .ok (raw, rest) → raw.length = n ∧ ws = packBytes raw ++ rest
  | 0, ws, rest, raw, h => by
    cases ws <;> (simp [unpackBytes] at h; obtain ⟨rfl, rfl⟩ := h; simp [packBytes])
  | n + 1, [], rest, raw, h => by simp [unpackBytes] at h
  | 1, w :: ws, rest, raw, h => by
    simp only [unpackBytes] at h
    split at h
    · next hz =>
      simp only [Except.ok.injEq, Prod.mk.injEq] at h
      obtain ⟨rfl, rfl⟩ := h
      have he := wordOfBytes_eta w
      simp only [hz] at he
      exact ⟨rfl, by rw [packBytes, he]; rfl⟩
    · simp at h
  | 2, w :: ws, rest, raw, h => by
    simp only [unpackBytes] at h
    split at h
    · next hz =>
      simp only [Except.ok.injEq, Prod.mk.injEq] at h
      obtain ⟨rfl, rfl⟩ := h
      have he := wordOfBytes_eta w
      simp only [hz] at he
      exact ⟨rfl, by rw [packBytes, he]; rfl⟩
    · simp at h
  | 3, w :: ws, rest, raw, h => by
    simp only [unpackBytes] at h
    split at h
    · next hz =>
      simp only [Except.ok.injEq, Prod.mk.injEq] at h
      obtain ⟨rfl, rfl⟩ := h
      have he := wordOfBytes_eta w
      simp only [hz] at he
      exact ⟨rfl, by rw [packBytes, he]; rfl⟩
    · simp at h
  | n + 4, w :: ws, rest, raw, h => by
    simp only [unpackBytes] at h
    split at h
    · next raw' rest' hu =>
      simp at h
      obtain ⟨rfl, rfl⟩ := h
      obtain ⟨hl, rfl⟩ := unpackBytes_eq_ok n ws _ _ hu
      simp [packBytes, hl, wordOfBytes_eta]
    · simp at h

theorem packBytes_length : ∀ raw : List Byte, (packBytes raw).length = (raw.length + 3) / 4
  | [] => rfl
  | [_] => by simp [packBytes]
  | [_, _] => by simp [packBytes]
  | [_, _, _] => by simp [packBytes]
  | _ :: _ :: _ :: _ :: raw => by
    have ih := packBytes_length raw
    simp only [packBytes, List.length_cons, ih]
    omega

end Sys2Proof
end

