-- ==== Sys2Proof/Laws/Operands.lean ====
section
/-! SUPPORT. One lemma per function of the Report Decoder, and the form of the remapped word. -/

namespace Sys2Proof.Machine

/-! ## Bits -/

/-- Bit `j` after a conditional set of bit `i`. -/
theorem setBitIf_getLsbD (c : Bool) (i j : Nat) (v : Byte) (hj : j < 8) :
    (setBitIf c i v).getLsbD j = ((c && decide (i = j)) || v.getLsbD j) := by
  unfold setBitIf
  cases c <;> simp [hj, eq_comm, Bool.or_comm]

/-- A remapped word has the form of a button word (10_state.md R34). -/
theorem remap_buttonWordForm (dp ex : Byte) : ButtonWordForm (remap dp ex) := by
  unfold remap
  generalize dp.getLsbD 5 = a, dp.getLsbD 6 = b, dp.getLsbD 4 = c, dp.getLsbD 7 = d
  generalize ex.getLsbD 4 = e, ex.getLsbD 5 = f, ex.getLsbD 0 = g, ex.getLsbD 1 = h
  revert a b c d e f g h
  decide

/-! ## The payload and its fields (20_memory.md R71 to R73, 40_report_decoder.md R143) -/

/-- Inside the payload a read gives the byte. -/
theorem memRead_of_lt {p : List Byte} {a : Nat} (h : a < p.length) : memRead p a = p[a] := by
  simp [memRead, List.getElem?_eq_getElem h]

/-- A read of the payload depends on one byte of the report alone. -/
theorem memRead_payload (c : HidFieldConfig) (raw : List Byte) (a : Nat) :
    memRead (payload c raw) a = (raw[skip c + a]?).getD (Config.outsidePayload a) := by
  simp [memRead, payload, List.getElem?_drop]

/-- A payload bit is a bit of its byte. -/
theorem payloadBit_eq (p : List Byte) (i : Nat) : payloadBit p i = ((memRead p (i / 8)).getLsbD (i % 8)).toNat := by
  unfold payloadBit BitVec.getLsbD
  rw [Nat.testBit_eq_decide_div_mod_eq]
  rcases Nat.mod_two_eq_zero_or_one ((memRead p (i / 8)).toNat / 2 ^ (i % 8)) with h | h <;> rw [h] <;> rfl

theorem field_zero (p : List Byte) (off : Nat) : field p off 0 = 0 := rfl

theorem field_succ (p : List Byte) (off size : Nat) :
    field p off (size + 1) = field p off size + payloadBit p (off + size) * 2 ^ size := rfl

/-- A field depends on the bytes it lies in alone. -/
theorem field_congr {p q : List Byte} {off size len : Nat} (h : ∀ a < len, memRead p a = memRead q a)
    (hl : off + size ≤ 8 * len) : field p off size = field q off size := by
  induction size with
  | zero => rfl
  | succ n ih => rw [field_succ, field_succ, ih (by omega), payloadBit, payloadBit, h _ (by omega)]

/-! ## Normalization (40_report_decoder.md R144) -/

theorem clamp_mono {v w lo hi : Int} (h : v ≤ w) (hb : lo ≤ hi) : clamp v lo hi ≤ clamp w lo hi := by
  unfold clamp
  (repeat' split) <;> omega

theorem deadZone_mono {c d dz : Int} (h : c ≤ d) (hz : 0 ≤ dz) : deadZone c dz ≤ deadZone d dz := by
  unfold deadZone
  (repeat' split) <;> omega

/-! ## Admitted layouts (40_report_decoder.md R141) -/

theorem axisAdmitted_eq_true {len : Nat} {a : AxisField} :
    axisAdmitted len a = true ↔
      1 ≤ a.bitSize ∧ a.bitOffset + a.bitSize ≤ 8 * len ∧ 0 < axisHalf a - axisDz a := decide_eq_true_iff

theorem admitted_eq_true {c : HidFieldConfig} :
    admitted c = true ↔
      skip c ≤ c.reportLength ∧ axisAdmitted (c.reportLength - skip c) c.axis0 = true ∧
        axisAdmitted (c.reportLength - skip c) c.axis1 = true ∧
        ∀ b : Fin 12, c.button[b].byteOffset < c.reportLength - skip c := by
  unfold admitted
  rw [Bool.and_eq_true, Bool.and_eq_true, Bool.and_eq_true, decide_eq_true_iff, decide_eq_true_iff]
  tauto

end Sys2Proof.Machine
end

