-- ==== Sys2Proof/Laws/State.lean ====
section
/-! SUPPORT. One lemma per field of State and named update: what the update leaves, and what it writes. -/

namespace Sys2Proof.Machine

/-! ## lineWrite -/

@[simp] theorem lineWrite_gs (s : State) (l : Line) (v : Level) : (s.lineWrite l v).gs = s.gs := by cases l <;> rfl

@[simp] theorem lineWrite_bw (s : State) (l : Line) (v : Level) : (s.lineWrite l v).bw = s.bw := by cases l <;> rfl

@[simp] theorem lineWrite_mode (s : State) (l : Line) (v : Level) : (s.lineWrite l v).mode = s.mode := by cases l <;> rfl

@[simp] theorem lineWrite_sh (s : State) (l : Line) (v : Level) : (s.lineWrite l v).sh = s.sh := by cases l <;> rfl

@[simp] theorem lineWrite_dw (s : State) (l : Line) (v : Level) : (s.lineWrite l v).dw = s.dw := by cases l <;> rfl

@[simp] theorem lineWrite_ms (s : State) (l : Line) (v : Level) : (s.lineWrite l v).ms = s.ms := by cases l <;> rfl

@[simp] theorem lineWrite_par (s : State) (l : Line) (v : Level) : (s.lineWrite l v).par = s.par := by cases l <;> rfl

@[simp] theorem lineWrite_cfg (s : State) (l : Line) (v : Level) : (s.lineWrite l v).cfg = s.cfg := by cases l <;> rfl

@[simp] theorem lineWrite_connections (s : State) (l : Line) (v : Level) : (s.lineWrite l v).connections = s.connections := by cases l <;> rfl

@[simp] theorem lineWrite_failure (s : State) (l : Line) (v : Level) : (s.lineWrite l v).failure = s.failure := by cases l <;> rfl

@[simp] theorem lineWrite_trace (s : State) (l : Line) (v : Level) : (s.lineWrite l v).trace = s.trace := by cases l <;> rfl

@[simp] theorem lineWrite_lat_role (s : State) (l : Line) (v : Level) : (s.lineWrite l v).lat.role = s.lat.role := by cases l <;> rfl

@[simp] theorem lineWrite_lat_ie (s : State) (l : Line) (v : Level) : (s.lineWrite l v).lat.ie = s.lat.ie := by cases l <;> rfl

@[simp] theorem lineWrite_lat_ext (s : State) (l : Line) (v : Level) : (s.lineWrite l v).lat.ext = s.lat.ext := by cases l <;> rfl

@[simp] theorem lineWrite_clk_role (s : State) (l : Line) (v : Level) : (s.lineWrite l v).clk.role = s.clk.role := by cases l <;> rfl

@[simp] theorem lineWrite_clk_ie (s : State) (l : Line) (v : Level) : (s.lineWrite l v).clk.ie = s.clk.ie := by cases l <;> rfl

@[simp] theorem lineWrite_clk_ext (s : State) (l : Line) (v : Level) : (s.lineWrite l v).clk.ext = s.clk.ext := by cases l <;> rfl

@[simp] theorem lineWrite_lat_written (s : State) (v : Level) : (s.lineWrite .lat v).lat.olat = v := rfl

@[simp] theorem lineWrite_clk_written (s : State) (v : Level) : (s.lineWrite .clk v).clk.olat = v := rfl

@[simp] theorem lineWrite_dat_written (s : State) (v : Level) : (s.lineWrite .dat v).dat = v := rfl

/-! ## setPin -/

@[simp] theorem setPin_gs (s : State) (l : InLine) (p : PinLine) : (s.setPin l p).gs = s.gs := by cases l <;> rfl

@[simp] theorem setPin_bw (s : State) (l : InLine) (p : PinLine) : (s.setPin l p).bw = s.bw := by cases l <;> rfl

@[simp] theorem setPin_mode (s : State) (l : InLine) (p : PinLine) : (s.setPin l p).mode = s.mode := by cases l <;> rfl

@[simp] theorem setPin_sh (s : State) (l : InLine) (p : PinLine) : (s.setPin l p).sh = s.sh := by cases l <;> rfl

@[simp] theorem setPin_dw (s : State) (l : InLine) (p : PinLine) : (s.setPin l p).dw = s.dw := by cases l <;> rfl

@[simp] theorem setPin_dir (s : State) (l : InLine) (p : PinLine) : (s.setPin l p).dir = s.dir := by cases l <;> rfl

@[simp] theorem setPin_dat (s : State) (l : InLine) (p : PinLine) : (s.setPin l p).dat = s.dat := by cases l <;> rfl

@[simp] theorem setPin_ms (s : State) (l : InLine) (p : PinLine) : (s.setPin l p).ms = s.ms := by cases l <;> rfl

@[simp] theorem setPin_par (s : State) (l : InLine) (p : PinLine) : (s.setPin l p).par = s.par := by cases l <;> rfl

@[simp] theorem setPin_cfg (s : State) (l : InLine) (p : PinLine) : (s.setPin l p).cfg = s.cfg := by cases l <;> rfl

@[simp] theorem setPin_connections (s : State) (l : InLine) (p : PinLine) : (s.setPin l p).connections = s.connections := by cases l <;> rfl

@[simp] theorem setPin_failure (s : State) (l : InLine) (p : PinLine) : (s.setPin l p).failure = s.failure := by cases l <;> rfl

@[simp] theorem setPin_trace (s : State) (l : InLine) (p : PinLine) : (s.setPin l p).trace = s.trace := by cases l <;> rfl

/-! ## setExt -/

@[simp] theorem setExt_gs (s : State) (l : InLine) (v : Level) : (s.setExt l v).gs = s.gs := by cases l <;> rfl

@[simp] theorem setExt_bw (s : State) (l : InLine) (v : Level) : (s.setExt l v).bw = s.bw := by cases l <;> rfl

@[simp] theorem setExt_mode (s : State) (l : InLine) (v : Level) : (s.setExt l v).mode = s.mode := by cases l <;> rfl

@[simp] theorem setExt_sh (s : State) (l : InLine) (v : Level) : (s.setExt l v).sh = s.sh := by cases l <;> rfl

@[simp] theorem setExt_dw (s : State) (l : InLine) (v : Level) : (s.setExt l v).dw = s.dw := by cases l <;> rfl

@[simp] theorem setExt_dir (s : State) (l : InLine) (v : Level) : (s.setExt l v).dir = s.dir := by cases l <;> rfl

@[simp] theorem setExt_dat (s : State) (l : InLine) (v : Level) : (s.setExt l v).dat = s.dat := by cases l <;> rfl

@[simp] theorem setExt_ms (s : State) (l : InLine) (v : Level) : (s.setExt l v).ms = s.ms := by cases l <;> rfl

@[simp] theorem setExt_par (s : State) (l : InLine) (v : Level) : (s.setExt l v).par = s.par := by cases l <;> rfl

@[simp] theorem setExt_cfg (s : State) (l : InLine) (v : Level) : (s.setExt l v).cfg = s.cfg := by cases l <;> rfl

@[simp] theorem setExt_connections (s : State) (l : InLine) (v : Level) : (s.setExt l v).connections = s.connections := by cases l <;> rfl

@[simp] theorem setExt_failure (s : State) (l : InLine) (v : Level) : (s.setExt l v).failure = s.failure := by cases l <;> rfl

@[simp] theorem setExt_trace (s : State) (l : InLine) (v : Level) : (s.setExt l v).trace = s.trace := by cases l <;> rfl

/-! ## writeBw -/

@[simp] theorem writeBw_gs (s : State) (w : BitVec 16) : (s.writeBw w).gs = s.gs := rfl

@[simp] theorem writeBw_mode (s : State) (w : BitVec 16) : (s.writeBw w).mode = s.mode := rfl

@[simp] theorem writeBw_sh (s : State) (w : BitVec 16) : (s.writeBw w).sh = s.sh := rfl

@[simp] theorem writeBw_dw (s : State) (w : BitVec 16) : (s.writeBw w).dw = s.dw := rfl

@[simp] theorem writeBw_dir (s : State) (w : BitVec 16) : (s.writeBw w).dir = s.dir := rfl

@[simp] theorem writeBw_lat (s : State) (w : BitVec 16) : (s.writeBw w).lat = s.lat := rfl

@[simp] theorem writeBw_clk (s : State) (w : BitVec 16) : (s.writeBw w).clk = s.clk := rfl

@[simp] theorem writeBw_dat (s : State) (w : BitVec 16) : (s.writeBw w).dat = s.dat := rfl

@[simp] theorem writeBw_ms (s : State) (w : BitVec 16) : (s.writeBw w).ms = s.ms := rfl

@[simp] theorem writeBw_par (s : State) (w : BitVec 16) : (s.writeBw w).par = s.par := rfl

@[simp] theorem writeBw_cfg (s : State) (w : BitVec 16) : (s.writeBw w).cfg = s.cfg := rfl

@[simp] theorem writeBw_connections (s : State) (w : BitVec 16) : (s.writeBw w).connections = s.connections := rfl

@[simp] theorem writeBw_failure (s : State) (w : BitVec 16) : (s.writeBw w).failure = s.failure := rfl

@[simp] theorem writeBw_trace (s : State) (w : BitVec 16) : (s.writeBw w).trace = s.trace := rfl

@[simp] theorem writeBw_bw_written (s : State) (w : BitVec 16) :
    (s.writeBw w).bw = w := rfl

/-! ## advanceMs -/

@[simp] theorem advanceMs_gs (s : State) (k : Nat) : (s.advanceMs k).gs = s.gs := rfl

@[simp] theorem advanceMs_bw (s : State) (k : Nat) : (s.advanceMs k).bw = s.bw := rfl

@[simp] theorem advanceMs_mode (s : State) (k : Nat) : (s.advanceMs k).mode = s.mode := rfl

@[simp] theorem advanceMs_sh (s : State) (k : Nat) : (s.advanceMs k).sh = s.sh := rfl

@[simp] theorem advanceMs_dw (s : State) (k : Nat) : (s.advanceMs k).dw = s.dw := rfl

@[simp] theorem advanceMs_dir (s : State) (k : Nat) : (s.advanceMs k).dir = s.dir := rfl

@[simp] theorem advanceMs_lat (s : State) (k : Nat) : (s.advanceMs k).lat = s.lat := rfl

@[simp] theorem advanceMs_clk (s : State) (k : Nat) : (s.advanceMs k).clk = s.clk := rfl

@[simp] theorem advanceMs_dat (s : State) (k : Nat) : (s.advanceMs k).dat = s.dat := rfl

@[simp] theorem advanceMs_par (s : State) (k : Nat) : (s.advanceMs k).par = s.par := rfl

@[simp] theorem advanceMs_cfg (s : State) (k : Nat) : (s.advanceMs k).cfg = s.cfg := rfl

@[simp] theorem advanceMs_connections (s : State) (k : Nat) : (s.advanceMs k).connections = s.connections := rfl

@[simp] theorem advanceMs_failure (s : State) (k : Nat) : (s.advanceMs k).failure = s.failure := rfl

@[simp] theorem advanceMs_trace (s : State) (k : Nat) : (s.advanceMs k).trace = s.trace := rfl

@[simp] theorem advanceMs_ms_written (s : State) (k : Nat) :
    (s.advanceMs k).ms = s.ms + BitVec.ofNat 32 k := rfl

/-! ## openWindow -/

@[simp] theorem openWindow_gs (s : State) : (s.openWindow).gs = s.gs := rfl

@[simp] theorem openWindow_bw (s : State) : (s.openWindow).bw = s.bw := rfl

@[simp] theorem openWindow_mode (s : State) : (s.openWindow).mode = s.mode := rfl

@[simp] theorem openWindow_sh (s : State) : (s.openWindow).sh = s.sh := rfl

@[simp] theorem openWindow_dir (s : State) : (s.openWindow).dir = s.dir := rfl

@[simp] theorem openWindow_lat (s : State) : (s.openWindow).lat = s.lat := rfl

@[simp] theorem openWindow_clk (s : State) : (s.openWindow).clk = s.clk := rfl

@[simp] theorem openWindow_dat (s : State) : (s.openWindow).dat = s.dat := rfl

@[simp] theorem openWindow_ms (s : State) : (s.openWindow).ms = s.ms := rfl

@[simp] theorem openWindow_par (s : State) : (s.openWindow).par = s.par := rfl

@[simp] theorem openWindow_cfg (s : State) : (s.openWindow).cfg = s.cfg := rfl

@[simp] theorem openWindow_connections (s : State) : (s.openWindow).connections = s.connections := rfl

@[simp] theorem openWindow_failure (s : State) : (s.openWindow).failure = s.failure := rfl

@[simp] theorem openWindow_trace (s : State) : (s.openWindow).trace = s.trace := rfl

@[simp] theorem openWindow_dw_written (s : State) :
    (s.openWindow).dw = { s.dw with dd := true, wa := true, pl := 0, pc := 0 } := rfl

/-! ## stampWait -/

@[simp] theorem stampWait_gs (s : State) : (s.stampWait).gs = s.gs := rfl

@[simp] theorem stampWait_bw (s : State) : (s.stampWait).bw = s.bw := rfl

@[simp] theorem stampWait_mode (s : State) : (s.stampWait).mode = s.mode := rfl

@[simp] theorem stampWait_sh (s : State) : (s.stampWait).sh = s.sh := rfl

@[simp] theorem stampWait_dir (s : State) : (s.stampWait).dir = s.dir := rfl

@[simp] theorem stampWait_lat (s : State) : (s.stampWait).lat = s.lat := rfl

@[simp] theorem stampWait_clk (s : State) : (s.stampWait).clk = s.clk := rfl

@[simp] theorem stampWait_dat (s : State) : (s.stampWait).dat = s.dat := rfl

@[simp] theorem stampWait_ms (s : State) : (s.stampWait).ms = s.ms := rfl

@[simp] theorem stampWait_par (s : State) : (s.stampWait).par = s.par := rfl

@[simp] theorem stampWait_cfg (s : State) : (s.stampWait).cfg = s.cfg := rfl

@[simp] theorem stampWait_connections (s : State) : (s.stampWait).connections = s.connections := rfl

@[simp] theorem stampWait_failure (s : State) : (s.stampWait).failure = s.failure := rfl

@[simp] theorem stampWait_trace (s : State) : (s.stampWait).trace = s.trace := rfl

@[simp] theorem stampWait_dw_written (s : State) :
    (s.stampWait).dw = { s.dw with ws := s.ms } := rfl

/-! ## closeWindow -/

@[simp] theorem closeWindow_gs (s : State) : (s.closeWindow).gs = s.gs := rfl

@[simp] theorem closeWindow_bw (s : State) : (s.closeWindow).bw = s.bw := rfl

@[simp] theorem closeWindow_mode (s : State) : (s.closeWindow).mode = s.mode := rfl

@[simp] theorem closeWindow_sh (s : State) : (s.closeWindow).sh = s.sh := rfl

@[simp] theorem closeWindow_dir (s : State) : (s.closeWindow).dir = s.dir := rfl

@[simp] theorem closeWindow_lat (s : State) : (s.closeWindow).lat = s.lat := rfl

@[simp] theorem closeWindow_clk (s : State) : (s.closeWindow).clk = s.clk := rfl

@[simp] theorem closeWindow_dat (s : State) : (s.closeWindow).dat = s.dat := rfl

@[simp] theorem closeWindow_ms (s : State) : (s.closeWindow).ms = s.ms := rfl

@[simp] theorem closeWindow_par (s : State) : (s.closeWindow).par = s.par := rfl

@[simp] theorem closeWindow_cfg (s : State) : (s.closeWindow).cfg = s.cfg := rfl

@[simp] theorem closeWindow_connections (s : State) : (s.closeWindow).connections = s.connections := rfl

@[simp] theorem closeWindow_failure (s : State) : (s.closeWindow).failure = s.failure := rfl

@[simp] theorem closeWindow_trace (s : State) : (s.closeWindow).trace = s.trace := rfl

@[simp] theorem closeWindow_dw_written (s : State) :
    (s.closeWindow).dw = { s.dw with wa := false } := rfl

/-! ## clearDetection -/

@[simp] theorem clearDetection_gs (s : State) : (s.clearDetection).gs = s.gs := rfl

@[simp] theorem clearDetection_bw (s : State) : (s.clearDetection).bw = s.bw := rfl

@[simp] theorem clearDetection_mode (s : State) : (s.clearDetection).mode = s.mode := rfl

@[simp] theorem clearDetection_sh (s : State) : (s.clearDetection).sh = s.sh := rfl

@[simp] theorem clearDetection_dir (s : State) : (s.clearDetection).dir = s.dir := rfl

@[simp] theorem clearDetection_lat (s : State) : (s.clearDetection).lat = s.lat := rfl

@[simp] theorem clearDetection_clk (s : State) : (s.clearDetection).clk = s.clk := rfl

@[simp] theorem clearDetection_dat (s : State) : (s.clearDetection).dat = s.dat := rfl

@[simp] theorem clearDetection_ms (s : State) : (s.clearDetection).ms = s.ms := rfl

@[simp] theorem clearDetection_par (s : State) : (s.clearDetection).par = s.par := rfl

@[simp] theorem clearDetection_cfg (s : State) : (s.clearDetection).cfg = s.cfg := rfl

@[simp] theorem clearDetection_connections (s : State) : (s.clearDetection).connections = s.connections := rfl

@[simp] theorem clearDetection_failure (s : State) : (s.clearDetection).failure = s.failure := rfl

@[simp] theorem clearDetection_trace (s : State) : (s.clearDetection).trace = s.trace := rfl

@[simp] theorem clearDetection_dw_written (s : State) :
    (s.clearDetection).dw = { s.dw with dd := false, wa := false, pl := 0, pc := 0, lc := s.ms } := rfl

/-! ## countEdge -/

@[simp] theorem countEdge_gs (s : State) (l : InLine) : (countEdge l s).gs = s.gs := by cases l <;> rfl

@[simp] theorem countEdge_bw (s : State) (l : InLine) : (countEdge l s).bw = s.bw := by cases l <;> rfl

@[simp] theorem countEdge_mode (s : State) (l : InLine) : (countEdge l s).mode = s.mode := by cases l <;> rfl

@[simp] theorem countEdge_sh (s : State) (l : InLine) : (countEdge l s).sh = s.sh := by cases l <;> rfl

@[simp] theorem countEdge_dir (s : State) (l : InLine) : (countEdge l s).dir = s.dir := by cases l <;> rfl

@[simp] theorem countEdge_lat (s : State) (l : InLine) : (countEdge l s).lat = s.lat := by cases l <;> rfl

@[simp] theorem countEdge_clk (s : State) (l : InLine) : (countEdge l s).clk = s.clk := by cases l <;> rfl

@[simp] theorem countEdge_dat (s : State) (l : InLine) : (countEdge l s).dat = s.dat := by cases l <;> rfl

@[simp] theorem countEdge_ms (s : State) (l : InLine) : (countEdge l s).ms = s.ms := by cases l <;> rfl

@[simp] theorem countEdge_par (s : State) (l : InLine) : (countEdge l s).par = s.par := by cases l <;> rfl

@[simp] theorem countEdge_cfg (s : State) (l : InLine) : (countEdge l s).cfg = s.cfg := by cases l <;> rfl

@[simp] theorem countEdge_connections (s : State) (l : InLine) : (countEdge l s).connections = s.connections := by cases l <;> rfl

@[simp] theorem countEdge_failure (s : State) (l : InLine) : (countEdge l s).failure = s.failure := by cases l <;> rfl

@[simp] theorem countEdge_trace (s : State) (l : InLine) : (countEdge l s).trace = s.trace := by cases l <;> rfl

/-! ## listenLines -/

@[simp] theorem listenLines_gs (s : State) : (listenLines s).gs = s.gs := rfl

@[simp] theorem listenLines_bw (s : State) : (listenLines s).bw = s.bw := rfl

@[simp] theorem listenLines_mode (s : State) : (listenLines s).mode = s.mode := rfl

@[simp] theorem listenLines_sh (s : State) : (listenLines s).sh = s.sh := rfl

@[simp] theorem listenLines_dw (s : State) : (listenLines s).dw = s.dw := rfl

@[simp] theorem listenLines_dir (s : State) : (listenLines s).dir = s.dir := rfl

@[simp] theorem listenLines_dat (s : State) : (listenLines s).dat = s.dat := rfl

@[simp] theorem listenLines_ms (s : State) : (listenLines s).ms = s.ms := rfl

@[simp] theorem listenLines_par (s : State) : (listenLines s).par = s.par := rfl

@[simp] theorem listenLines_cfg (s : State) : (listenLines s).cfg = s.cfg := rfl

@[simp] theorem listenLines_connections (s : State) : (listenLines s).connections = s.connections := rfl

@[simp] theorem listenLines_failure (s : State) : (listenLines s).failure = s.failure := rfl

@[simp] theorem listenLines_trace (s : State) : (listenLines s).trace = s.trace := rfl

@[simp] theorem listenLines_lat_written (s : State) :
    (listenLines s).lat = { s.lat with role := .inpu, ie := true } := rfl

@[simp] theorem listenLines_clk_written (s : State) :
    (listenLines s).clk = { s.clk with role := .inpu, ie := true } := rfl

/-! ## releaseLines -/

@[simp] theorem releaseLines_gs (s : State) : (releaseLines s).gs = s.gs := rfl

@[simp] theorem releaseLines_bw (s : State) : (releaseLines s).bw = s.bw := rfl

@[simp] theorem releaseLines_mode (s : State) : (releaseLines s).mode = s.mode := rfl

@[simp] theorem releaseLines_sh (s : State) : (releaseLines s).sh = s.sh := rfl

@[simp] theorem releaseLines_dw (s : State) : (releaseLines s).dw = s.dw := rfl

@[simp] theorem releaseLines_dir (s : State) : (releaseLines s).dir = s.dir := rfl

@[simp] theorem releaseLines_dat (s : State) : (releaseLines s).dat = s.dat := rfl

@[simp] theorem releaseLines_ms (s : State) : (releaseLines s).ms = s.ms := rfl

@[simp] theorem releaseLines_par (s : State) : (releaseLines s).par = s.par := rfl

@[simp] theorem releaseLines_cfg (s : State) : (releaseLines s).cfg = s.cfg := rfl

@[simp] theorem releaseLines_connections (s : State) : (releaseLines s).connections = s.connections := rfl

@[simp] theorem releaseLines_failure (s : State) : (releaseLines s).failure = s.failure := rfl

@[simp] theorem releaseLines_trace (s : State) : (releaseLines s).trace = s.trace := rfl

@[simp] theorem releaseLines_lat_written (s : State) :
    (releaseLines s).lat = { s.lat with olat := true, role := .out, ie := false } := rfl

@[simp] theorem releaseLines_clk_written (s : State) :
    (releaseLines s).clk = { s.clk with olat := true, role := .out, ie := false } := rfl

/-! ## enableCd32 -/

@[simp] theorem enableCd32_gs (s : State) : (enableCd32 s).gs = s.gs := rfl

@[simp] theorem enableCd32_bw (s : State) : (enableCd32 s).bw = s.bw := rfl

@[simp] theorem enableCd32_sh (s : State) : (enableCd32 s).sh = s.sh := rfl

@[simp] theorem enableCd32_dw (s : State) : (enableCd32 s).dw = s.dw := rfl

@[simp] theorem enableCd32_dir (s : State) : (enableCd32 s).dir = s.dir := rfl

@[simp] theorem enableCd32_dat (s : State) : (enableCd32 s).dat = s.dat := rfl

@[simp] theorem enableCd32_ms (s : State) : (enableCd32 s).ms = s.ms := rfl

@[simp] theorem enableCd32_par (s : State) : (enableCd32 s).par = s.par := rfl

@[simp] theorem enableCd32_cfg (s : State) : (enableCd32 s).cfg = s.cfg := rfl

@[simp] theorem enableCd32_connections (s : State) : (enableCd32 s).connections = s.connections := rfl

@[simp] theorem enableCd32_failure (s : State) : (enableCd32 s).failure = s.failure := rfl

@[simp] theorem enableCd32_trace (s : State) : (enableCd32 s).trace = s.trace := rfl

@[simp] theorem enableCd32_mode_written (s : State) :
    (enableCd32 s).mode = .cd32 := rfl

@[simp] theorem enableCd32_lat_written (s : State) :
    (enableCd32 s).lat = { s.lat with role := .inpu, ie := true } := rfl

@[simp] theorem enableCd32_clk_written (s : State) :
    (enableCd32 s).clk = { s.clk with role := .inpu, ie := true } := rfl

/-! ## disableCd32 -/

@[simp] theorem disableCd32_gs (s : State) : (disableCd32 s).gs = s.gs := by unfold disableCd32; split <;> rfl

@[simp] theorem disableCd32_bw (s : State) : (disableCd32 s).bw = s.bw := by unfold disableCd32; split <;> rfl

@[simp] theorem disableCd32_sh (s : State) : (disableCd32 s).sh = s.sh := by unfold disableCd32; split <;> rfl

@[simp] theorem disableCd32_dw (s : State) : (disableCd32 s).dw = s.dw := by unfold disableCd32; split <;> rfl

@[simp] theorem disableCd32_dir (s : State) : (disableCd32 s).dir = s.dir := by unfold disableCd32; split <;> rfl

@[simp] theorem disableCd32_dat (s : State) : (disableCd32 s).dat = s.dat := by unfold disableCd32; split <;> rfl

@[simp] theorem disableCd32_ms (s : State) : (disableCd32 s).ms = s.ms := by unfold disableCd32; split <;> rfl

@[simp] theorem disableCd32_par (s : State) : (disableCd32 s).par = s.par := by unfold disableCd32; split <;> rfl

@[simp] theorem disableCd32_cfg (s : State) : (disableCd32 s).cfg = s.cfg := by unfold disableCd32; split <;> rfl

@[simp] theorem disableCd32_connections (s : State) : (disableCd32 s).connections = s.connections := by unfold disableCd32; split <;> rfl

@[simp] theorem disableCd32_failure (s : State) : (disableCd32 s).failure = s.failure := by unfold disableCd32; split <;> rfl

@[simp] theorem disableCd32_trace (s : State) : (disableCd32 s).trace = s.trace := by unfold disableCd32; split <;> rfl

/-! ## nextConnection -/

@[simp] theorem nextConnection_gs (s : State) : (nextConnection s).gs = s.gs := by unfold nextConnection; split <;> rfl

@[simp] theorem nextConnection_bw (s : State) : (nextConnection s).bw = s.bw := by unfold nextConnection; split <;> rfl

@[simp] theorem nextConnection_mode (s : State) : (nextConnection s).mode = s.mode := by unfold nextConnection; split <;> rfl

@[simp] theorem nextConnection_sh (s : State) : (nextConnection s).sh = s.sh := by unfold nextConnection; split <;> rfl

@[simp] theorem nextConnection_dw (s : State) : (nextConnection s).dw = s.dw := by unfold nextConnection; split <;> rfl

@[simp] theorem nextConnection_dir (s : State) : (nextConnection s).dir = s.dir := by unfold nextConnection; split <;> rfl

@[simp] theorem nextConnection_lat (s : State) : (nextConnection s).lat = s.lat := by unfold nextConnection; split <;> rfl

@[simp] theorem nextConnection_clk (s : State) : (nextConnection s).clk = s.clk := by unfold nextConnection; split <;> rfl

@[simp] theorem nextConnection_dat (s : State) : (nextConnection s).dat = s.dat := by unfold nextConnection; split <;> rfl

@[simp] theorem nextConnection_ms (s : State) : (nextConnection s).ms = s.ms := by unfold nextConnection; split <;> rfl

@[simp] theorem nextConnection_par (s : State) : (nextConnection s).par = s.par := by unfold nextConnection; split <;> rfl

@[simp] theorem nextConnection_failure (s : State) : (nextConnection s).failure = s.failure := by unfold nextConnection; split <;> rfl

@[simp] theorem nextConnection_trace (s : State) : (nextConnection s).trace = s.trace := by unfold nextConnection; split <;> rfl

/-! ## procDirections -/

@[simp] theorem procDirections_gs (s : State) (dp : Byte) : (procDirections dp s).gs = s.gs := rfl

@[simp] theorem procDirections_bw (s : State) (dp : Byte) : (procDirections dp s).bw = s.bw := rfl

@[simp] theorem procDirections_mode (s : State) (dp : Byte) : (procDirections dp s).mode = s.mode := rfl

@[simp] theorem procDirections_sh (s : State) (dp : Byte) : (procDirections dp s).sh = s.sh := rfl

@[simp] theorem procDirections_dw (s : State) (dp : Byte) : (procDirections dp s).dw = s.dw := rfl

@[simp] theorem procDirections_lat (s : State) (dp : Byte) : (procDirections dp s).lat = s.lat := rfl

@[simp] theorem procDirections_clk (s : State) (dp : Byte) : (procDirections dp s).clk = s.clk := rfl

@[simp] theorem procDirections_dat (s : State) (dp : Byte) : (procDirections dp s).dat = s.dat := rfl

@[simp] theorem procDirections_ms (s : State) (dp : Byte) : (procDirections dp s).ms = s.ms := rfl

@[simp] theorem procDirections_par (s : State) (dp : Byte) : (procDirections dp s).par = s.par := rfl

@[simp] theorem procDirections_cfg (s : State) (dp : Byte) : (procDirections dp s).cfg = s.cfg := rfl

@[simp] theorem procDirections_connections (s : State) (dp : Byte) : (procDirections dp s).connections = s.connections := rfl

@[simp] theorem procDirections_failure (s : State) (dp : Byte) : (procDirections dp s).failure = s.failure := rfl

@[simp] theorem procDirections_trace (s : State) (dp : Byte) : (procDirections dp s).trace = s.trace := rfl

@[simp] theorem procDirections_dir_written (s : State) (dp : Byte) :
    (procDirections dp s).dir = { d0 := !dp.getLsbD 0, d1 := !dp.getLsbD 1, d2 := !dp.getLsbD 2, d3 := !dp.getLsbD 3 } := rfl

/-! ## procWord -/

@[simp] theorem procWord_gs (s : State) (dp ex : Byte) : (procWord dp ex s).gs = s.gs := rfl

@[simp] theorem procWord_mode (s : State) (dp ex : Byte) : (procWord dp ex s).mode = s.mode := rfl

@[simp] theorem procWord_sh (s : State) (dp ex : Byte) : (procWord dp ex s).sh = s.sh := rfl

@[simp] theorem procWord_dw (s : State) (dp ex : Byte) : (procWord dp ex s).dw = s.dw := rfl

@[simp] theorem procWord_dir (s : State) (dp ex : Byte) : (procWord dp ex s).dir = s.dir := rfl

@[simp] theorem procWord_lat (s : State) (dp ex : Byte) : (procWord dp ex s).lat = s.lat := rfl

@[simp] theorem procWord_clk (s : State) (dp ex : Byte) : (procWord dp ex s).clk = s.clk := rfl

@[simp] theorem procWord_dat (s : State) (dp ex : Byte) : (procWord dp ex s).dat = s.dat := rfl

@[simp] theorem procWord_ms (s : State) (dp ex : Byte) : (procWord dp ex s).ms = s.ms := rfl

@[simp] theorem procWord_par (s : State) (dp ex : Byte) : (procWord dp ex s).par = s.par := rfl

@[simp] theorem procWord_cfg (s : State) (dp ex : Byte) : (procWord dp ex s).cfg = s.cfg := rfl

@[simp] theorem procWord_connections (s : State) (dp ex : Byte) : (procWord dp ex s).connections = s.connections := rfl

@[simp] theorem procWord_failure (s : State) (dp ex : Byte) : (procWord dp ex s).failure = s.failure := rfl

@[simp] theorem procWord_trace (s : State) (dp ex : Byte) : (procWord dp ex s).trace = s.trace := rfl

@[simp] theorem procWord_bw_written (s : State) (dp ex : Byte) :
    (procWord dp ex s).bw = remap dp ex := rfl

/-! ## procButtons -/

@[simp] theorem lineWrite_dual_dir (s : State) (l : DualLine) (v : Level) :
    (s.lineWrite (dualLine l) v).dir = s.dir := by cases l <;> rfl

@[simp] theorem procButtons_gs (s : State) (dp : Byte) : (procButtons dp s).gs = s.gs := by unfold procButtons; split <;> simp

@[simp] theorem procButtons_bw (s : State) (dp : Byte) : (procButtons dp s).bw = s.bw := by unfold procButtons; split <;> simp

@[simp] theorem procButtons_mode (s : State) (dp : Byte) : (procButtons dp s).mode = s.mode := by unfold procButtons; split <;> simp

@[simp] theorem procButtons_sh (s : State) (dp : Byte) : (procButtons dp s).sh = s.sh := by unfold procButtons; split <;> simp

@[simp] theorem procButtons_dw (s : State) (dp : Byte) : (procButtons dp s).dw = s.dw := by unfold procButtons; split <;> simp

@[simp] theorem procButtons_dir (s : State) (dp : Byte) : (procButtons dp s).dir = s.dir := by unfold procButtons; split <;> simp

@[simp] theorem procButtons_ms (s : State) (dp : Byte) : (procButtons dp s).ms = s.ms := by unfold procButtons; split <;> simp

@[simp] theorem procButtons_par (s : State) (dp : Byte) : (procButtons dp s).par = s.par := by unfold procButtons; split <;> simp

@[simp] theorem procButtons_cfg (s : State) (dp : Byte) : (procButtons dp s).cfg = s.cfg := by unfold procButtons; split <;> simp

@[simp] theorem procButtons_connections (s : State) (dp : Byte) : (procButtons dp s).connections = s.connections := by unfold procButtons; split <;> simp

@[simp] theorem procButtons_failure (s : State) (dp : Byte) : (procButtons dp s).failure = s.failure := by unfold procButtons; split <;> simp

@[simp] theorem procButtons_trace (s : State) (dp : Byte) : (procButtons dp s).trace = s.trace := by unfold procButtons; split <;> simp

@[simp] theorem procButtons_lat_role (s : State) (dp : Byte) : (procButtons dp s).lat.role = s.lat.role := by unfold procButtons; split <;> simp

@[simp] theorem procButtons_lat_ie (s : State) (dp : Byte) : (procButtons dp s).lat.ie = s.lat.ie := by unfold procButtons; split <;> simp

@[simp] theorem procButtons_lat_ext (s : State) (dp : Byte) : (procButtons dp s).lat.ext = s.lat.ext := by unfold procButtons; split <;> simp

@[simp] theorem procButtons_clk_role (s : State) (dp : Byte) : (procButtons dp s).clk.role = s.clk.role := by unfold procButtons; split <;> simp

@[simp] theorem procButtons_clk_ie (s : State) (dp : Byte) : (procButtons dp s).clk.ie = s.clk.ie := by unfold procButtons; split <;> simp

@[simp] theorem procButtons_clk_ext (s : State) (dp : Byte) : (procButtons dp s).clk.ext = s.clk.ext := by unfold procButtons; split <;> simp

/-! ## latchFallAction -/

@[simp] theorem latchFallAction_gs (s : State) : (latchFallAction s).gs = s.gs := rfl

@[simp] theorem latchFallAction_bw (s : State) : (latchFallAction s).bw = s.bw := rfl

@[simp] theorem latchFallAction_mode (s : State) : (latchFallAction s).mode = s.mode := rfl

@[simp] theorem latchFallAction_dw (s : State) : (latchFallAction s).dw = s.dw := rfl

@[simp] theorem latchFallAction_dir (s : State) : (latchFallAction s).dir = s.dir := rfl

@[simp] theorem latchFallAction_lat (s : State) : (latchFallAction s).lat = s.lat := rfl

@[simp] theorem latchFallAction_clk (s : State) : (latchFallAction s).clk = s.clk := rfl

@[simp] theorem latchFallAction_ms (s : State) : (latchFallAction s).ms = s.ms := rfl

@[simp] theorem latchFallAction_par (s : State) : (latchFallAction s).par = s.par := rfl

@[simp] theorem latchFallAction_cfg (s : State) : (latchFallAction s).cfg = s.cfg := rfl

@[simp] theorem latchFallAction_connections (s : State) : (latchFallAction s).connections = s.connections := rfl

@[simp] theorem latchFallAction_failure (s : State) : (latchFallAction s).failure = s.failure := rfl

@[simp] theorem latchFallAction_trace (s : State) : (latchFallAction s).trace = s.trace := rfl

@[simp] theorem latchFallAction_sh_written (s : State) :
    (latchFallAction s).sh = { idx := 0, lw := s.bw, sv := savedLevels s } := rfl

@[simp] theorem latchFallAction_dat_written (s : State) :
    (latchFallAction s).dat = !s.bw.getLsbD 0 := rfl

/-! ## latchRiseAction -/

@[simp] theorem latchRiseAction_gs (s : State) : (latchRiseAction s).gs = s.gs := rfl

@[simp] theorem latchRiseAction_bw (s : State) : (latchRiseAction s).bw = s.bw := rfl

@[simp] theorem latchRiseAction_mode (s : State) : (latchRiseAction s).mode = s.mode := rfl

@[simp] theorem latchRiseAction_sh (s : State) : (latchRiseAction s).sh = s.sh := rfl

@[simp] theorem latchRiseAction_dw (s : State) : (latchRiseAction s).dw = s.dw := rfl

@[simp] theorem latchRiseAction_dir (s : State) : (latchRiseAction s).dir = s.dir := rfl

@[simp] theorem latchRiseAction_ms (s : State) : (latchRiseAction s).ms = s.ms := rfl

@[simp] theorem latchRiseAction_par (s : State) : (latchRiseAction s).par = s.par := rfl

@[simp] theorem latchRiseAction_cfg (s : State) : (latchRiseAction s).cfg = s.cfg := rfl

@[simp] theorem latchRiseAction_connections (s : State) : (latchRiseAction s).connections = s.connections := rfl

@[simp] theorem latchRiseAction_failure (s : State) : (latchRiseAction s).failure = s.failure := rfl

@[simp] theorem latchRiseAction_trace (s : State) : (latchRiseAction s).trace = s.trace := rfl

@[simp] theorem latchRiseAction_lat_written (s : State) :
    (latchRiseAction s).lat = { s.lat with olat := s.sh.sv.getLsbD 0 } := rfl

@[simp] theorem latchRiseAction_clk_written (s : State) :
    (latchRiseAction s).clk = { s.clk with olat := s.sh.sv.getLsbD 1 } := rfl

@[simp] theorem latchRiseAction_dat_written (s : State) :
    (latchRiseAction s).dat = s.sh.sv.getLsbD 2 := rfl

/-! ## clockRiseAction -/

@[simp] theorem clockRiseAction_gs (s : State) : (clockRiseAction s).gs = s.gs := by unfold clockRiseAction; split <;> rfl

@[simp] theorem clockRiseAction_bw (s : State) : (clockRiseAction s).bw = s.bw := by unfold clockRiseAction; split <;> rfl

@[simp] theorem clockRiseAction_mode (s : State) : (clockRiseAction s).mode = s.mode := by unfold clockRiseAction; split <;> rfl

@[simp] theorem clockRiseAction_dw (s : State) : (clockRiseAction s).dw = s.dw := by unfold clockRiseAction; split <;> rfl

@[simp] theorem clockRiseAction_dir (s : State) : (clockRiseAction s).dir = s.dir := by unfold clockRiseAction; split <;> rfl

@[simp] theorem clockRiseAction_lat (s : State) : (clockRiseAction s).lat = s.lat := by unfold clockRiseAction; split <;> rfl

@[simp] theorem clockRiseAction_clk (s : State) : (clockRiseAction s).clk = s.clk := by unfold clockRiseAction; split <;> rfl

@[simp] theorem clockRiseAction_ms (s : State) : (clockRiseAction s).ms = s.ms := by unfold clockRiseAction; split <;> rfl

@[simp] theorem clockRiseAction_par (s : State) : (clockRiseAction s).par = s.par := by unfold clockRiseAction; split <;> rfl

@[simp] theorem clockRiseAction_cfg (s : State) : (clockRiseAction s).cfg = s.cfg := by unfold clockRiseAction; split <;> rfl

@[simp] theorem clockRiseAction_connections (s : State) : (clockRiseAction s).connections = s.connections := by unfold clockRiseAction; split <;> rfl

@[simp] theorem clockRiseAction_failure (s : State) : (clockRiseAction s).failure = s.failure := by unfold clockRiseAction; split <;> rfl

@[simp] theorem clockRiseAction_trace (s : State) : (clockRiseAction s).trace = s.trace := by unfold clockRiseAction; split <;> rfl

end Sys2Proof.Machine
end

