-- ==== Sys2Proof/Laws/Ops.lean ====
section
/-! SUPPORT. One lemma per shared operation: everything it can do. -/

namespace Sys2Proof.Machine

/-! ## Outcomes -/

@[simp] theorem next_inj {s t : State} : (Host.Outcome.next s : Result) = .next t ↔ s = t :=
  ⟨fun h => by cases h; rfl, fun h => by rw [h]⟩

@[simp] theorem refused_inj {e f : Refusal} : (Host.Outcome.refused e : Result) = .refused f ↔ e = f :=
  ⟨fun h => by cases h; rfl, fun h => by rw [h]⟩

@[simp] theorem next_ne_refused {s : State} {e : Refusal} : (Host.Outcome.next s : Result) = .refused e ↔ False :=
  ⟨fun h => (by cases h), False.elim⟩

@[simp] theorem refused_ne_next {s : State} {e : Refusal} : (Host.Outcome.refused e : Result) = .next s ↔ False :=
  ⟨fun h => (by cases h), False.elim⟩

@[simp] theorem andThen_next (s : State) (f : State → Result) : andThen (.next s) f = f s := rfl

@[simp] theorem andThen_refused (e : Refusal) (f : State → Result) : andThen (.refused e) f = .refused e := rfl

theorem andThen_assoc (r : Result) (f g : State → Result) :
    andThen (andThen r f) g = andThen r fun s => andThen (f s) g := by
  cases r <;> rfl

theorem andThen_eq_next {r : Result} {f : State → Result} {t : State} :
    andThen r f = .next t ↔ ∃ s, r = .next s ∧ f s = .next t := by
  cases r with
  | next s => simp
  | fault e => exact nomatch e
  | refused e => simp

theorem andThen_eq_refused {r : Result} {f : State → Result} {e : Refusal} :
    andThen r f = .refused e ↔ r = .refused e ∨ ∃ s, r = .next s ∧ f s = .refused e := by
  cases r with
  | next s => simp
  | fault e => exact nomatch e
  | refused e => simp

theorem andThen_next_right (r : Result) : andThen r .next = r := by
  cases r <;> rfl

/-- A result is a next state or a refusal: no operation faults (60_exceptions.md R262). -/
theorem result_cases (r : Result) : (∃ s, r = .next s) ∨ ∃ e, r = .refused e := by
  cases r with
  | next s => exact .inl ⟨s, rfl⟩
  | fault e => exact nomatch e
  | refused e => exact .inr ⟨e, rfl⟩

/-! ## Lines -/

@[simp] theorem dirLines_get_set (d : DirLines) (i j : Fin 4) (v : Level) :
    (d.set i v).get j = if j = i then v else d.get j := by
  fin_cases i <;> fin_cases j <;> rfl

/-- A line reads as the level last written to it, and every other line as before (10_state.md R47). -/
theorem lineOut_lineWrite (s : State) (l m : Line) (v : Level) :
    (s.lineWrite l v).lineOut m = if m = l then v else s.lineOut m := by
  cases l <;> cases m <;> simp [State.lineWrite, State.lineOut, PinLine.write]

@[simp] theorem pin_lat (s : State) : s.pin .lat = s.lat := rfl

@[simp] theorem pin_clk (s : State) : s.pin .clk = s.clk := rfl

@[simp] theorem setExt_lat_written (s : State) (v : Level) : (s.setExt .lat v).lat = { s.lat with ext := v } := rfl

@[simp] theorem setExt_clk_written (s : State) (v : Level) : (s.setExt .clk v).clk = { s.clk with ext := v } := rfl

@[simp] theorem setExt_lat_clk (s : State) (v : Level) : (s.setExt .lat v).clk = s.clk := rfl

@[simp] theorem setExt_clk_lat (s : State) (v : Level) : (s.setExt .clk v).lat = s.lat := rfl

/-- `disableCd32` writes the Normal-mode configuration, or finds it in place (41_mode_controller.md R173). -/
theorem disableCd32_cases (s : State) :
    (s.mode = .normal ∧ s.lat.role = .out ∧ s.clk.role = .out ∧ disableCd32 s = s) ∨
      (¬ (s.mode = .normal ∧ s.lat.role = .out ∧ s.clk.role = .out) ∧
        disableCd32 s = { releaseLines s with mode := .normal }) := by
  unfold disableCd32
  split
  · next h => exact .inl ⟨h.1, h.2.1, h.2.2, rfl⟩
  · next h => exact .inr ⟨h, rfl⟩

@[simp] theorem disableCd32_mode (s : State) : (disableCd32 s).mode = .normal := by
  unfold disableCd32
  split
  · next h => exact h.1
  · rfl

/-- PROC's third group: nothing in CD32 mode (41_mode_controller.md R171). -/
theorem procButtons_cd32 (dp : Byte) {s : State} (h : s.mode = .cd32) : procButtons dp s = s := by
  simp [procButtons, h]

/-! ## Elapsed time and the conditions on it -/

theorem settled_eq_true {now lc : Word} : settled now lc = true ↔ 500 ≤ elapsed now lc := decide_eq_true_iff

theorem settled_eq_false {now lc : Word} : settled now lc = false ↔ elapsed now lc < 500 :=
  decide_eq_false_iff_not.trans Nat.not_le

theorem waitOver_eq_true {now ws : Word} : waitOver now ws = true ↔ 100 ≤ elapsed now ws := decide_eq_true_iff

theorem waitOver_eq_false {now ws : Word} : waitOver now ws = false ↔ elapsed now ws < 100 :=
  decide_eq_false_iff_not.trans Nat.not_le

theorem sawCd32_eq_true {pl pc : BitVec 16} : sawCd32 pl pc = true ↔ 5 ≤ pl.toNat ∧ 5 ≤ pc.toNat := by
  unfold sawCd32
  rw [Bool.and_eq_true, decide_eq_true_iff, decide_eq_true_iff]

/-- While a window is open, `k` ticks are allowed exactly when none is asked for or the last one ends by 100 ms
(43_autodetector.md R234). -/
theorem mayTick_eq_true {k : Nat} {wa : Bool} {now ws : Word} :
    mayTick k wa now ws = true ↔ (wa = true → k = 0 ∨ elapsed now ws + k ≤ 100) := by
  unfold mayTick
  rw [Bool.or_eq_true, Bool.or_eq_true, decide_eq_true_iff, beq_iff_eq]
  cases wa <;> simp

/-- Elapsed time after `k` more milliseconds (10_state.md R51). -/
theorem elapsed_add (now since : Word) (k : Nat) :
    elapsed (now + BitVec.ofNat 32 k) since = (elapsed now since + k) % 2 ^ 32 := by
  unfold elapsed
  rw [BitVec.sub_eq_add_neg, BitVec.sub_eq_add_neg, BitVec.add_assoc, BitVec.add_comm (BitVec.ofNat 32 k),
    ← BitVec.add_assoc, BitVec.toNat_add, BitVec.toNat_ofNat, Nat.add_mod_mod]

theorem elapsed_lt (now since : Word) : elapsed now since < 2 ^ 32 := (now - since).isLt

/-! ## Guards and edges -/

theorem whenPollingFree_busy {k : State → Result} {s : State} (h : s.dw.wa = true) :
    whenPollingFree k s = .refused .pollingBusy := by
  simp [whenPollingFree, h]

theorem whenPollingFree_free {k : State → Result} {s : State} (h : s.dw.wa = false) : whenPollingFree k s = k s := by
  simp [whenPollingFree, h]

theorem whenPollingFree_eq_next {k : State → Result} {s t : State} :
    whenPollingFree k s = .next t ↔ s.dw.wa = false ∧ k s = .next t := by
  cases h : s.dw.wa <;> simp [whenPollingFree, h]

/-- An edge completes exactly from the other level, and then the line has moved and the edge was delivered
(42_shift_engine.md R200). -/
theorem edge_eq_next {l : InLine} {v : Level} {act : State → State} {s t : State} :
    edge l v act s = .next t ↔ (s.pin l).ext ≠ v ∧ deliverEdge l act (s.setExt l v) = t := by
  unfold edge
  cases h : ((s.pin l).ext == v)
  · simp [bne_iff_ne.1 (show ((s.pin l).ext != v) = true by simp [bne, h])]
  · simp [beq_iff_eq.1 h]

/-- The four things a delivered or dropped edge can do (42_shift_engine.md R200). -/
theorem deliverEdge_cases (l : InLine) (act : State → State) (s : State) :
    ((s.pin l).ie = false ∧ deliverEdge l act s = s) ∨
    ((s.pin l).ie = true ∧ s.dw.wa = true ∧ deliverEdge l act s = countEdge l s) ∨
    ((s.pin l).ie = true ∧ s.dw.wa = false ∧ s.mode = .normal ∧ deliverEdge l act s = s) ∨
    ((s.pin l).ie = true ∧ s.dw.wa = false ∧ s.mode = .cd32 ∧ deliverEdge l act s = act s) := by
  cases hi : (s.pin l).ie <;> cases hw : s.dw.wa <;> cases hm : s.mode <;>
    simp [deliverEdge, handlerBody, acknowledge, hi, hw, hm]

/-- What holds of a state, of the state with the edge counted, and of the state after the protocol action, holds after
the delivery. -/
theorem deliverEdge_keeps {P : State → Prop} {l : InLine} {act : State → State} {s : State} (h : P s)
    (hc : P (countEdge l s)) (ha : P (act s)) : P (deliverEdge l act s) := by
  rcases deliverEdge_cases l act s with ⟨_, e⟩ | ⟨_, _, e⟩ | ⟨_, _, _, e⟩ | ⟨_, _, _, e⟩ <;> rw [e] <;> assumption

/-! ## One inversion lemma per operation -/

/-- LF (42_shift_engine.md R201). -/
theorem exec_lf_eq_next {s t : State} :
    exec .lf s = .next t ↔ s.lat.ext = true ∧ deliverEdge .lat latchFallAction (s.setExt .lat false) = t := by
  simp [exec, execLf, edge_eq_next]

/-- LR (R202). -/
theorem exec_lr_eq_next {s t : State} :
    exec .lr s = .next t ↔ s.lat.ext = false ∧ deliverEdge .lat latchRiseAction (s.setExt .lat true) = t := by
  simp [exec, execLr, edge_eq_next]

/-- CR (R203). -/
theorem exec_cr_eq_next {s t : State} :
    exec .cr s = .next t ↔ s.clk.ext = false ∧ deliverEdge .clk clockRiseAction (s.setExt .clk true) = t := by
  simp [exec, execCr, edge_eq_next]

/-- CF (R204). -/
theorem exec_cf_eq_next {s t : State} :
    exec .cf s = .next t ↔ s.clk.ext = true ∧
      (bif s.par.clkFallIrq then deliverEdge .clk clockFallAction (s.setExt .clk false) else s.setExt .clk false) = t := by
  cases h : s.par.clkFallIrq <;> cases h' : s.clk.ext <;> simp [exec, execCf, edge_eq_next, h, h']

/-- PROC (41_mode_controller.md R171). -/
theorem exec_proc_eq_next {dp ex : Byte} {s t : State} :
    exec (.proc dp ex) s = .next t ↔
      s.dw.wa = false ∧ procButtons dp (procWord dp ex (procDirections dp s)) = t := by
  simp [exec, execProc, whenPollingFree_eq_next]

/-- EN (R172). -/
theorem exec_en_eq_next {s t : State} : exec .en s = .next t ↔ s.dw.wa = false ∧ enableCd32 s = t := by
  simp [exec, execEn, whenPollingFree_eq_next]

/-- DIS (R173). -/
theorem exec_dis_eq_next {s t : State} : exec .dis s = .next t ↔ s.dw.wa = false ∧ disableCd32 s = t := by
  simp [exec, execDis, whenPollingFree_eq_next]

/-- DET (43_autodetector.md R231). -/
theorem exec_det_eq_next {s t : State} :
    exec .det s = .next t ↔ s.dw.wa = false ∧
      (bif s.dw.dd || !settled s.ms s.dw.lc then s else (listenLines s.openWindow).stampWait) = t := by
  cases h : (s.dw.dd || !settled s.ms s.dw.lc) <;> simp only [exec, execDet, whenPollingFree_eq_next, h] <;> simp

/-- WCL (R232). -/
theorem exec_wcl_eq_next {s t : State} :
    exec .wcl s = .next t ↔ s.dw.wa = true ∧ waitOver s.ms s.dw.ws = true ∧ decideMode s.closeWindow = t := by
  cases h : s.dw.wa <;> cases h' : waitOver s.ms s.dw.ws <;> simp [exec, execWcl, h, h']

/-- RST (R233). -/
theorem exec_rst_eq_next {s t : State} :
    exec .rst s = .next t ↔ s.dw.wa = false ∧ nextConnection (disableCd32 s.clearDetection) = t := by
  simp [exec, execRst, whenPollingFree_eq_next]

/-- DEC (40_report_decoder.md R142): the empty report, the short report, and the decoded one. -/
theorem exec_dec_eq_next {raw : List Byte} {s t : State} :
    exec (.dec raw) s = .next t ↔ s.dw.wa = false ∧ admitted s.cfg ∧
      (if raw.length = 0 then { s with failure := some .emptyReport }
        else if raw.length < s.cfg.reportLength then { s with failure := some .shortRead }
        else { s with gs := decodeReport s.par.dirBit s.cfg raw, failure := none }) = t := by
  simp only [exec, execDec, whenPollingFree_eq_next, decodeInto, raise]
  cases ha : admitted s.cfg
  · simp
  · simp only [true_and]
    split
    · simp
    · split <;> simp

/-- TICK (43_autodetector.md R234). -/
theorem exec_tick_eq_next {k : Nat} {s t : State} :
    exec (.tick k) s = .next t ↔ mayTick k s.dw.wa s.ms s.dw.ws = true ∧ s.advanceMs k = t := by
  cases h : mayTick k s.dw.wa s.ms s.dw.ws <;> simp [exec, execTick, h]

/-- An operation carries the words still to come, and does not read them (20_memory.md R85). -/
theorem exec_trace (i : Instr) (s : State) (ws : List Word) :
    exec i { s with trace := ws } = andThen (exec i s) fun t => .next { t with trace := ws } := by
  obtain ⟨gs, bw, mode, sh, ⟨pl, pc, wa, dd, lc, st⟩, dir, ⟨lo, lr, li, le⟩, ⟨co, cr, ci, ce⟩, dat, ms, ⟨db, ⟨b4, b5, b6⟩, cf⟩,
    cfg, cs, fl, tr⟩ := s
  cases i with
  | lf => cases le <;> cases li <;> cases wa <;> cases mode <;> rfl
  | lr => cases le <;> cases li <;> cases wa <;> cases mode <;> rfl
  | cf => cases cf <;> cases ce <;> cases ci <;> cases wa <;> cases mode <;> rfl
  | cr =>
    cases ce <;> cases ci <;> cases wa <;> cases mode <;> try rfl
    simp [exec, execCr, edge, deliverEdge, handlerBody, acknowledge, clockRiseAction, State.pin, State.setExt,
      State.setPin]
    split <;> rfl
  | proc dp ex =>
    cases wa <;> cases mode <;> try rfl
    cases b4 <;> cases b5 <;> cases b6 <;> rfl
  | en => cases wa <;> rfl
  | dis => cases wa <;> cases mode <;> cases lr <;> cases cr <;> rfl
  | det =>
    cases wa <;> cases dd <;> try rfl
    simp only [exec, execDet, whenPollingFree, cond_false, Bool.false_or]
    cases settled ms lc <;> rfl
  | wcl =>
    cases wa <;> try rfl
    simp only [exec, execWcl, cond_true, decideMode, State.closeWindow]
    cases waitOver ms st <;> cases sawCd32 pl pc <;> cases mode <;> cases lr <;> cases cr <;> rfl
  | rst => cases wa <;> cases mode <;> cases lr <;> cases cr <;> cases cs <;> rfl
  | dec raw =>
    cases wa <;> try rfl
    simp only [exec, execDec, whenPollingFree, cond_false]
    cases admitted cfg <;> try rfl
    simp only [cond_true, decodeInto]
    split
    · rfl
    · split <;> rfl
  | tick k =>
    simp only [exec, execTick]
    cases mayTick k wa ms st <;> rfl

/-! ## Traces -/

@[simp] theorem runOps_nil (s : State) : runOps [] s = .next s := rfl

@[simp] theorem runOps_cons (i : Instr) (is : List Instr) (s : State) :
    runOps (i :: is) s = andThen (exec i s) (runOps is) := rfl

theorem runOps_append (as bs : List Instr) (s : State) :
    runOps (as ++ bs) s = andThen (runOps as s) (runOps bs) := by
  induction as generalizing s with
  | nil => rfl
  | cons a as ih =>
    simp only [List.cons_append, runOps_cons, andThen_assoc]
    congr 1
    funext t
    exact ih t

/-- What every operation of a list keeps, a run of the list keeps. -/
theorem runOps_keeps {P : State → Prop} {is : List Instr} (h : ∀ i ∈ is, ∀ s t, P s → exec i s = .next t → P t)
    {s t : State} (hs : P s) (hr : runOps is s = .next t) : P t := by
  induction is generalizing s with
  | nil => simpa using next_inj.1 hr ▸ hs
  | cons i is ih =>
    obtain ⟨u, hu, hr⟩ := andThen_eq_next.1 hr
    exact ih (fun j hj => h j (List.mem_cons_of_mem _ hj)) (h i List.mem_cons_self s u hs hu) hr

/-! ## Runs of the machine -/

theorem core_run_next {n : Nat} {s t : State} (h : step s = .next t) : core.run (n + 1) s = core.run n t := by
  have hs : core.step s = .next t := h
  simp only [Host.Core.run, hs]

theorem core_run_refused {n : Nat} {s : State} {e : Refusal} (h : step s = .refused e) :
    core.run (n + 1) s = .refused e := by
  have hs : core.step s = .refused e := h
  simp only [Host.Core.run, hs]

end Sys2Proof.Machine
end

