-- ==== Sys2Proof/Laws/PerInstr.lean ====
section
/-! SUPPORT. Families of statements about every operation as syntax, one lemma per constructor. -/

namespace Sys2Proof.Laws.EncodesInWords

/-- The length of an operation is known from its first word (30_encoding.md R113). -/
def Statement (i : Instr) : Prop :=
  i.wf = true → ∃ (w : Word) (ws : List Word), encode i = w :: ws ∧ wordCount w = 1 + ws.length

theorem lf : Statement .lf := fun _ => ⟨_, _, rfl, rfl⟩

theorem lr : Statement .lr := fun _ => ⟨_, _, rfl, rfl⟩

theorem cf : Statement .cf := fun _ => ⟨_, _, rfl, rfl⟩

theorem cr : Statement .cr := fun _ => ⟨_, _, rfl, rfl⟩

theorem proc (dp ex : Byte) : Statement (.proc dp ex) := fun _ =>
  ⟨_, _, rfl, by simp [wordCount, opcodeOf_eq_byteOf]⟩

theorem en : Statement .en := fun _ => ⟨_, _, rfl, rfl⟩

theorem dis : Statement .dis := fun _ => ⟨_, _, rfl, rfl⟩

theorem det : Statement .det := fun _ => ⟨_, _, rfl, rfl⟩

theorem wcl : Statement .wcl := fun _ => ⟨_, _, rfl, rfl⟩

theorem rst : Statement .rst := fun _ => ⟨_, _, rfl, rfl⟩

theorem dec (raw : List Byte) : Statement (.dec raw) := fun h => by
  have hl : raw.length ≤ 255 := of_decide_eq_true h
  refine ⟨_, _, rfl, ?_⟩
  rw [wordCount, opcodeOf_eq_byteOf, byteOf_wordOfBytes_3, if_pos rfl, byteOf_wordOfBytes_0, packBytes_length,
    BitVec.toNat_ofNat, Nat.mod_eq_of_lt (by omega)]

theorem tick (k : Nat) : Statement (.tick k) := fun _ => ⟨_, _, rfl, by simp [wordCount]⟩

end Sys2Proof.Laws.EncodesInWords
end

