-- ==== Sys2Proof/Tests/Slice0.lean ====
section
/-! SUPPORT. Tests: ill-formed terms, words written out from 30_encoding.md, one-step vectors from 95_test_vectors.md, and a
witness for the hypotheses of each statement of Certificates/Slice0/Obligations.lean. -/

namespace Sys2Proof.Tests

open Sys2Proof.Machine

/-! ## Helpers -/

/-- The next state, if there is one. -/
def nextOf (r : Result) : Option State :=
  match r with
  | .next s => some s
  | _ => none

/-- The refusal, if it is one. -/
def refusalOf (r : Result) : Option Refusal :=
  match r with
  | .refused e => some e
  | _ => none

/-- A field of the next state. -/
def after {α : Type} (f : State → α) (i : Instr) (s : State) : Option α := (nextOf (exec i s)).map f

/-- The four direction latches, then LAT, CLK, DAT. -/
def latches (s : State) : List Level := [s.dir.d0, s.dir.d1, s.dir.d2, s.dir.d3, s.lat.olat, s.clk.olat, s.dat]

/-- A pulled-up input with its interrupt enabled, as EN and DET leave LAT and CLK. -/
def listening (olat ext : Level) : PinLine := { olat := olat, role := .inpu, ie := true, ext := ext }

/-- The state after reset, at time `ms`. -/
def idleAt (ms : Word) : State := { State.reset with ms := ms }

/-- CD32 mode with the button word `w` and both lines high. -/
def cd32 (w : BitVec 16) : State :=
  { State.reset with mode := .cd32, bw := w, lat := listening true true, clk := listening true true }

/-- A window opened at 500 ms from Normal mode, at time `ms`, with the two counters. -/
def window (ms : Word) (pl pc : BitVec 16) : State :=
  { State.reset with
    dw := { pl := pl, pc := pc, wa := true, dd := true, lc := 0, ws := 500 }, ms := ms,
    lat := listening true true, clk := listening true true }

/-- `s` with LAT low. -/
def latLow (s : State) : State := { s with lat := { s.lat with ext := false } }

/-- `s` with CLK low. -/
def clkLow (s : State) : State := { s with clk := { s.clk with ext := false } }

/-- `s` in which a falling Clock edge raises no interrupt. -/
def noFallIrq (s : State) : State := { s with par := { s.par with clkFallIrq := false } }

/-- `s` in the middle of a burst of the word `w` at index `k`. -/
def shifting (s : State) (w : BitVec 16) (k : BitVec 4) : State := { s with sh := { idx := k, lw := w, sv := 0b111 } }

/-- `cfg` B of 95_test_vectors.md. -/
def cfgB : HidFieldConfig := { HidFieldConfig.a with reportIdPresent := true, reportLength := 5 }

/-- `cfg` C of 95_test_vectors.md. -/
def cfgC : HidFieldConfig where
  axis0 := { bitOffset := 4, bitSize := 10, logicalMin := 0, logicalMax := 1023 }
  axis1 := { bitOffset := 16, bitSize := 8, logicalMin := 0, logicalMax := 255 }
  button := #v[⟨3, 0x01⟩, ⟨3, 0x02⟩, ⟨3, 0x04⟩, ⟨3, 0x08⟩, ⟨3, 0x10⟩, ⟨3, 0x20⟩, ⟨3, 0x40⟩, ⟨3, 0x80⟩,
    ⟨0, 0x01⟩, ⟨0, 0x02⟩, ⟨0, 0x04⟩, ⟨0, 0x08⟩]
  reportIdPresent := false
  reportLength := 4

/-- A layout whose first axis has the range 0 to 1, which R141 condition 4 refuses. -/
def cfgBad : HidFieldConfig := { HidFieldConfig.a with axis0 := ⟨0, 8, 0, 1⟩ }

/-! ## WellFormed refuses ill-formed terms (30_encoding.md R111, R113) -/

theorem test_wf_refuses_report_of_256_bytes : (Instr.dec (List.replicate 256 0)).wf = false := by
  rw [Instr.wf, List.length_replicate]; rfl

theorem test_wf_admits_report_of_255_bytes : (Instr.dec (List.replicate 255 0)).wf = true := by
  rw [Instr.wf, List.length_replicate]; rfl

theorem test_wf_refuses_tick_of_25_bits : (Instr.tick (2 ^ 24)).wf = false := by decide

theorem test_wf_admits_tick_of_24_bits : (Instr.tick (2 ^ 24 - 1)).wf = true := by decide

/-! ## Words written out bit by bit (30_encoding.md R111 to R113) -/

theorem test_decode_lf : decode [0b00000000_00000000_00000000_00000000#32] = .ok (.lf, []) := rfl

theorem test_decode_lr : decode [0b00000001_00000000_00000000_00000000#32] = .ok (.lr, []) := rfl

theorem test_decode_cf : decode [0b00000010_00000000_00000000_00000000#32] = .ok (.cf, []) := rfl

theorem test_decode_cr : decode [0b00000011_00000000_00000000_00000000#32] = .ok (.cr, []) := rfl

theorem test_decode_proc : decode [0b00010000_00000000_00100001_01010010#32] = .ok (.proc 0x52 0x21, []) := rfl

theorem test_decode_en : decode [0b00100000_00000000_00000000_00000000#32] = .ok (.en, []) := rfl

theorem test_decode_dis : decode [0b00100001_00000000_00000000_00000000#32] = .ok (.dis, []) := rfl

theorem test_decode_det : decode [0b00110000_00000000_00000000_00000000#32] = .ok (.det, []) := rfl

theorem test_decode_wcl : decode [0b00110001_00000000_00000000_00000000#32] = .ok (.wcl, []) := rfl

theorem test_decode_rst : decode [0b00110010_00000000_00000000_00000000#32] = .ok (.rst, []) := rfl

theorem test_decode_dec :
    decode [0b01000000_00000000_00000000_00000110#32, 0b00000001_01111111_11111111_00001001#32,
      0b00000000_00000000_01001101_00000000#32] = .ok (.dec [0x09, 0xFF, 0x7F, 0x01, 0x00, 0x4D], []) := rfl

theorem test_decode_tick : decode [0b01010000_10000000_00000001_11110011#32] = .ok (.tick 8389107, []) := rfl

theorem test_decode_refuses_unknown_opcode : decode [0x04000000#32] = .error (.illegalWord 0x04000000) := rfl

theorem test_decode_refuses_spare_byte :
    decode [0x40000001#32, 0x00000100#32] = .error (.spareByteNotZero 0x00000100) := rfl

theorem test_decode_refuses_missing_word : decode [0x40000005#32, 0#32] = .error .missingDataWord := rfl

theorem test_table_word_dec : decodeTableWord 32 0x40000005 = some (.dec [0, 0, 0, 0, 0]) := rfl

theorem test_table_word_tick : decodeTableWord 32 0x500003E8 = some (.tick 1000) := rfl

theorem test_fetch_word_runs_next :
    step (State.reset.withFetchWord 32 0x20000000) = exec .en State.reset := rfl

/-! ## One step (95_test_vectors.md, Part 2) -/

/-- 2.5: BW = 0x0366. -/
theorem test_lf_latches_and_saves :
    after (fun t => (t.sh, t.dat)) .lf (cd32 0x0366) = some ({ idx := 0, lw := 0x0366, sv := 0b111 }, true) := by decide

/-- 2.5, window counting: the counter wraps. -/
theorem test_lf_counts_modulo_2_16 : after (fun t => t.dw.pl) .lf (window 500 0xFFFF 0) = some 0 := by decide

/-- 2.5, DAT idle level. -/
theorem test_lr_restores :
    after latches .lr (latLow { cd32 0x0300 with sh := { idx := 0, lw := 0x0300, sv := 0b011 } }) =
      some [true, true, true, true, true, true, false] := by decide

/-- 2.5: Normal mode, not delivered. -/
theorem test_lr_not_delivered : nextOf (exec .lr (latLow State.reset)) = some State.reset := by decide

/-- 2.5: bit 1 of 0x0366 is 1. -/
theorem test_cr_advances :
    after (fun t => (t.sh.idx, t.dat)) .cr (clkLow (shifting (cd32 0) 0x0366 0)) = some (1, false) := by decide

/-- P2: the tenth rising edge changes nothing. -/
theorem test_cr_saturates_at_nine :
    after (fun t => (t.sh.idx, t.dat)) .cr (clkLow (shifting (cd32 0) 0x0366 9)) = some (9, true) := by decide

/-- 2.5: with `DW.pc = 4`. -/
theorem test_cf_counts : after (fun t => t.dw.pc) .cf (window 500 0 4) = some 5 := by decide

/-- 2.5: `CLK_FALL_IRQ` false. -/
theorem test_cf_moves_the_line_only : nextOf (exec .cf (noFallIrq (window 500 0 4))) =
    some (clkLow (noFallIrq (window 500 0 4))) := by decide

/-- 2.3, second row of the Normal-mode table. -/
theorem test_proc_normal : after (fun t => (latches t, t.bw)) (.proc 0x12 0x00) State.reset =
    some ([true, false, true, true, false, true, true], 0x0304) := by decide

/-- 2.3: CD32 mode. -/
theorem test_proc_cd32 : after (fun t => (latches t, t.bw)) (.proc 0xFF 0xFF) (cd32 0x0300) =
    some ([false, false, false, false, true, true, true], 0x037F) := by decide

/-- 2.4, first row. -/
theorem test_en : nextOf (exec .en State.reset) = some (cd32 0x0300) := by decide

/-- 2.4: a read cycle cut by DIS, DAT stays low. -/
theorem test_dis_second_branch :
    after (fun t => (t.mode, t.lat, t.dat)) .dis (latLow { cd32 0x0301 with dat := false }) =
      some (.normal, { olat := true, role := .out, ie := false, ext := false }, false) := by decide

/-- 2.4: the no-op branch keeps the pressed buttons. -/
theorem test_dis_keeps_pressed_buttons :
    after latches .dis { State.reset with lat := { State.reset.lat with olat := false }, dat := false } =
      some [true, true, true, true, false, true, false] := by decide

/-- 2.6: 499 ms. -/
theorem test_det_before_500 : nextOf (exec .det (idleAt 499)) = some (idleAt 499) := by decide

/-- 2.6: 500 ms. -/
theorem test_det_opens : nextOf (exec .det (idleAt 500)) = some (window 500 0 0) := by decide

/-- 2.6: five and five. -/
theorem test_wcl_selects_cd32 : after (fun t => (t.mode, t.dw.wa, t.lat.role, t.clk.ie)) .wcl (window 600 5 5) =
    some (.cd32, false, .inpu, true) := by decide

/-- 2.6: five and four. -/
theorem test_wcl_selects_normal : after (fun t => (t.mode, t.dw.wa, t.lat.role, t.clk.ie)) .wcl (window 600 5 4) =
    some (.normal, false, .out, false) := by decide

/-- 2.6: CD32 mode at 1000 ms. -/
theorem test_rst : after (fun t => (t.mode, t.dw.dd, t.dw.lc, t.lat.role)) .rst
    { cd32 0x0300 with ms := 1000, dw := { State.reset.dw with dd := true, pl := 9, pc := 9 } } =
    some (.normal, false, 1000, .out) := by decide

/-- 43_autodetector.md R233 corner case b: the layout of the new connection. -/
theorem test_rst_takes_the_next_layout : after (fun t => (t.cfg, t.connections)) .rst
    { State.reset with connections := [cfgB, cfgC] } = some (cfgB, [cfgC]) := by decide

/-- 2.2, `cfg` A. -/
theorem test_dec_cfg_a : after (fun t => t.gs) (.dec [0xFF, 0x7F, 0x01, 0x00]) State.reset = some ⟨0x12, 0x00⟩ := by
  decide

/-- 2.2, `cfg` C, fifth row: the field crosses a byte. -/
theorem test_dec_cfg_c : after (fun t => t.gs) (.dec [0x70, 0x30, 0xFF, 0x21]) { State.reset with cfg := cfgC } =
    some ⟨0x18, 0x02⟩ := by decide

/-- 2.6: wrap. -/
theorem test_tick_wraps : after (fun t => t.ms) (.tick 1) (idleAt 0xFFFFFFFF) = some 0 := by decide

/-- 2.6: held at the end of the window. -/
theorem test_tick_held : refusalOf (exec (.tick 1) (window 600 0 0)) = some .timeHeld := by decide

/-! ## The hypotheses of the statements can be met -/

/-- Every operation is enabled somewhere: the hypotheses of every completion statement. -/
theorem witness_every_operation_is_enabled :
    enabled .lf State.reset ∧ enabled .lr (latLow State.reset) ∧ enabled .cf State.reset ∧
    enabled .cr (clkLow State.reset) ∧ enabled (.proc 0 0) State.reset ∧ enabled .en State.reset ∧
    enabled .dis State.reset ∧ enabled .det State.reset ∧ enabled .wcl (window 600 0 0) ∧ enabled .rst State.reset ∧
    enabled (.dec []) State.reset ∧ enabled (.tick 9) State.reset :=
  ⟨rfl, rfl, rfl, rfl, rfl, rfl, rfl, rfl, ⟨rfl, by decide⟩, rfl, ⟨rfl, by decide⟩, fun h => by cases h⟩

/-- And every one with an enabling condition is disabled somewhere. -/
theorem witness_operations_are_disabled :
    ¬ enabled .lf (latLow State.reset) ∧ ¬ enabled .lr State.reset ∧ ¬ enabled .cf (clkLow State.reset) ∧
    ¬ enabled .cr State.reset ∧ ¬ enabled (.proc 0 0) (window 600 0 0) ∧ ¬ enabled .wcl (window 599 0 0) ∧
    ¬ enabled .wcl State.reset ∧ ¬ enabled (.dec []) { State.reset with cfg := cfgBad } ∧
    ¬ enabled (.tick 1) (window 600 0 0) := by
  refine ⟨?_, ?_, ?_, ?_, ?_, ?_, ?_, ?_, ?_⟩ <;> unfold enabled <;> decide

theorem witness_OperationsRunExactlyWhenEnabled_third_clause :
    (noFallIrq State.reset).par.clkFallIrq = false ∧ (noFallIrq State.reset).clk.ext = true := by decide

theorem witness_OperandFieldsAreReadAsTheyStand :
    decode ((0x40#8 ++ 0#16 ++ 0#8) :: []) = .ok (.dec [], []) ∧
    decode ((0x40#8 ++ 0#16 ++ 4#8) :: [0x04030201#32]) = .ok (.dec [1, 2, 3, 4], []) ∧
    decode ((0x40#8 ++ 0#16 ++ 5#8) :: [0x04030201#32, 5#32, 6#32]) = .ok (.dec [1, 2, 3, 4, 5], [6#32]) :=
  ⟨rfl, rfl, rfl⟩

theorem witness_EncodeThenDecode : (Instr.dec (List.replicate 255 7)).wf = true ∧ (Instr.tick 0xFFFFFF).wf = true := by
  rw [Instr.wf, List.length_replicate]; exact ⟨rfl, rfl⟩

theorem witness_DecodedWordsAreTheEncoding : decode [0x40000000#32, 0x01000000#32] = .ok (.dec [], [0x01000000#32]) :=
  rfl

theorem witness_IllegalWordsAreRefused :
    decode [0xFF000000#32] = .error (.illegalWord 0xFF000000) ∧ decode [0x00000001#32] = .error (.illegalWord 1) ∧
    decode [0x32800000#32] = .error (.illegalWord 0x32800000) ∧
    decode [0x10010000#32] = .error (.illegalWord 0x10010000) ∧
    decode [0x40000100#32] = .error (.illegalWord 0x40000100) ∧
    ({ State.reset with trace := [0x04000000#32] } : State).trace = [0x04000000#32] ∧
    ∀ i ∈ [Instr.en], i.wf = true := ⟨rfl, rfl, rfl, rfl, rfl, rfl, by decide⟩

theorem witness_ReportBytesArePackedLittleEndian :
    ([] : List Byte).length ≤ 255 ∧ (List.replicate 255 (1 : Byte)).length ≤ 255 :=
  ⟨Nat.zero_le _, by rw [List.length_replicate]⟩

theorem witness_StepRunsTheDecodedOperation :
    decode ({ State.reset with trace := [0x20000000#32] } : State).trace = .ok (.en, []) ∧ State.reset.trace = [] ∧
    decode ({ State.reset with trace := [0x20000001#32] } : State).trace = .error (.illegalWord 0x20000001) :=
  ⟨rfl, rfl, rfl⟩

theorem witness_RunningTraceWords : ∀ i ∈ [Instr.en, .dec [1], .tick 3], i.wf = true := by decide

theorem witness_ConfigurationOfTheRunIsKept : (∃ t, exec .en State.reset = .next t) ∧ Instr.en ≠ .rst :=
  ⟨⟨_, rfl⟩, by decide⟩

/-- Also the first clause of NothingMovesBeforeProcEnOrDet. -/
theorem witness_PowerOnRegisterValues :
    State.reset = State.powerOn Params.reference HidFieldConfig.a true true 0 0 0 0 := rfl

theorem witness_PowerOnMeetsTheInvariant : Params.reference.Legal := by decide

theorem witness_reset_invariant : State.reset.Inv :=
  ⟨by decide, by decide, by decide, by decide, by decide, by decide⟩

/-- A state in the middle of a burst, and one in an open window, meet the invariant. -/
theorem witness_StepKeepsTheInvariant :
    (shifting (cd32 0x0366) 0x0366 9).Inv ∧ (window 600 0 0).Inv ∧
    ∃ t, step (State.withFetchWord (window 600 0 0) 32 0x31000000) = .next t :=
  ⟨⟨by decide, by decide, by decide, by decide, by decide, by decide⟩,
    ⟨by decide, by decide, by decide, by decide, by decide, by decide⟩, ⟨_, rfl⟩⟩

theorem witness_InterruptsOnlyOnInputs :
    (window 600 0 0).InterruptsOnInputs ∧ ∃ t, exec .wcl (window 600 0 0) = .next t := ⟨by decide, ⟨_, rfl⟩⟩

theorem witness_LinesFollowTheMode :
    (window 600 0 0).LinesFollowMode ∧ (cd32 0).LinesFollowMode ∧ ∃ t, exec .wcl (window 600 0 0) = .next t :=
  ⟨by decide, by decide, ⟨_, rfl⟩⟩

theorem witness_ButtonWord :
    (∃ t, exec (.proc 1 2) State.reset = .next t ∧ t.bw ≠ State.reset.bw) ∧ Instr.lr ≠ .lf ∧
    ∀ dp ex, Instr.lr ≠ .proc dp ex := ⟨⟨_, rfl, by decide⟩, by decide, fun _ _ h => (by cases h)⟩

theorem witness_ShiftStateIsPrivate : Instr.en.agent ≠ .handler ∧ ∃ t, exec .en State.reset = .next t :=
  ⟨by decide, ⟨_, rfl⟩⟩

theorem witness_HandlerLeavesPollingStateAlone :
    Instr.cf.agent = .handler ∧ Instr.lf.agent = .handler ∧ (∃ t, exec .cf (window 500 0 0) = .next t) ∧
    (∃ t, exec .lf (cd32 0) = .next t) ∧ (cd32 0).dw.wa = false ∧ (window 500 0 0).dw.wa = true ∧ Instr.lf ≠ .lr :=
  ⟨rfl, rfl, ⟨_, rfl⟩, ⟨_, rfl⟩, rfl, rfl, by decide⟩

theorem witness_ModeChanges :
    (∃ t, exec .en State.reset = .next t ∧ t.mode ≠ State.reset.mode) ∧
    ∃ t, exec .rst (cd32 0) = .next t ∧ t.mode ≠ (cd32 0).mode := ⟨⟨_, rfl, by decide⟩, ⟨_, rfl, by decide⟩⟩

theorem witness_NothingMoves :
    (∀ i : Fin 4, (idleAt 499).dir.get i = true) ∧ (idleAt 499).lat.olat = true ∧ (idleAt 499).clk.olat = true ∧
    (idleAt 499).dat = true ∧ (idleAt 499).Driving ∧ (idleAt 499).mode = .normal ∧ (idleAt 499).dw.wa = false ∧
    (∃ t, exec .det (idleAt 499) = .next t) ∧ (∀ dp ex, Instr.det ≠ .proc dp ex) ∧ Instr.det ≠ .en ∧
    elapsed (idleAt 499).ms (idleAt 499).dw.lc < 500 :=
  ⟨by decide, rfl, rfl, rfl, by decide, rfl, rfl, ⟨_, rfl⟩, fun _ _ h => (by cases h), by decide, by decide⟩

theorem witness_PadShowsLatchOrHostLevel :
    (cd32 0).role InLine.lat.line = .inpu ∧ State.reset.role InLine.clk.line = .out ∧
    (State.reset.pin .clk).ext = true ∧ ((clkLow State.reset).pin .clk).ext = false ∧
    (clkLow State.reset).lineOut InLine.clk.line = true := by decide

/-- Each case of LF; the last one is the acting case. -/
theorem witness_LatchFallingEdge :
    (latLow State.reset).lat.ext = false ∧ (State.reset.lat.ext = true ∧ State.reset.lat.ie = false) ∧
    ((window 500 0 0).lat.ext = true ∧ (window 500 0 0).lat.ie = true ∧ (window 500 0 0).dw.wa = true) ∧
    (∀ m : Mode, ({ cd32 0 with mode := m } : State).lat.ext = true ∧ ({ cd32 0 with mode := m } : State).lat.ie = true ∧
      ({ cd32 0 with mode := m } : State).dw.wa = false ∧ ({ cd32 0 with mode := m } : State).mode = m) :=
  ⟨rfl, ⟨rfl, rfl⟩, ⟨rfl, rfl, rfl⟩, fun _ => ⟨rfl, rfl, rfl, rfl⟩⟩

theorem witness_LatchRisingEdge :
    State.reset.lat.ext = true ∧ ((latLow State.reset).lat.ext = false ∧ (latLow State.reset).lat.ie = false) ∧
    ((latLow (window 500 0 0)).lat.ext = false ∧ (latLow (window 500 0 0)).lat.ie = true ∧
      (latLow (window 500 0 0)).dw.wa = true) ∧
    (∀ m : Mode, (latLow { cd32 0 with mode := m }).lat.ext = false ∧ (latLow { cd32 0 with mode := m }).lat.ie = true ∧
      (latLow { cd32 0 with mode := m }).dw.wa = false ∧ (latLow { cd32 0 with mode := m }).mode = m) :=
  ⟨rfl, ⟨rfl, rfl⟩, ⟨rfl, rfl, rfl⟩, fun _ => ⟨rfl, rfl, rfl, rfl⟩⟩

/-- Each case of CR; the acting cases at indices 8 and 9. -/
theorem witness_ClockRisingEdge :
    State.reset.clk.ext = true ∧ ((clkLow State.reset).clk.ext = false ∧ (clkLow State.reset).clk.ie = false) ∧
    ((clkLow (window 500 0 0)).clk.ext = false ∧ (clkLow (window 500 0 0)).clk.ie = true ∧
      (clkLow (window 500 0 0)).dw.wa = true) ∧
    (∀ m : Mode, (clkLow { cd32 0 with mode := m }).clk.ext = false ∧ (clkLow { cd32 0 with mode := m }).clk.ie = true ∧
      (clkLow { cd32 0 with mode := m }).dw.wa = false ∧ (clkLow { cd32 0 with mode := m }).mode = m) ∧
    (shifting (cd32 0) 0 8).sh.idx.toNat < 9 ∧ 9 ≤ (shifting (cd32 0) 0 9).sh.idx.toNat :=
  ⟨rfl, ⟨rfl, rfl⟩, ⟨rfl, rfl, rfl⟩, fun _ => ⟨rfl, rfl, rfl, rfl⟩, by decide, by decide⟩

theorem witness_ClockFallingEdge :
    (clkLow State.reset).clk.ext = false ∧
    ((window 500 0 0).clk.ext = true ∧ (window 500 0 0).par.clkFallIrq = true ∧ (window 500 0 0).clk.ie = true ∧
      (window 500 0 0).dw.wa = true) ∧
    (noFallIrq (window 500 0 0)).par.clkFallIrq = false ∧ State.reset.clk.ie = false ∧ (cd32 0).dw.wa = false := by
  decide

/-- Also for ReadCycleRestoresTheIdleLevels, LiveButtonWordIsNeverSeenMidBurst and LatchFallForgetsTheOldShiftState. -/
theorem witness_ClocksShiftOutTheLatchedWord :
    (cd32 7).lat.ext = true ∧ (cd32 7).lat.ie = true ∧ (cd32 7).clk.ie = true ∧ (cd32 7).dw.wa = false ∧
    (cd32 7).mode = .cd32 ∧ (cd32 7).clk.ext = true ∧ (∃ s, exec .lf (cd32 7) = .next s) ∧
    (∀ i ∈ [Instr.cf, .cr, .en, .tick 1, .proc 1 2, .dec []], i = .cf ∨ i = .cr ∨ i = .en ∨ (∃ k, i = .tick k) ∨
      (∃ dp ex, i = .proc dp ex) ∨ ∃ raw, i = .dec raw) ∧
    (nextOf (runOps (.lf :: [.cf, .cr, .en, .tick 1, .proc 1 2, .dec []] ++ [.lr]) (cd32 7))).isSome = true :=
  ⟨rfl, rfl, rfl, rfl, rfl, rfl, ⟨_, rfl⟩, by simp, by decide⟩

theorem witness_LiveButtonWordIsNeverSeenMidBurst :
    Instr.lf ∉ [Instr.cf, .proc 1 2] ∧ ∃ s t u, exec .lf (cd32 7) = .next s ∧
      runOps [.cf, .proc 1 2] s = .next t ∧ exec .cr t = .next u ∧ u.sh.idx ≠ t.sh.idx :=
  ⟨by decide, _, _, _, rfl, rfl, rfl, by decide⟩

theorem witness_SimultaneousEdges :
    (clkLow (cd32 0)).lat.ext = true ∧ (clkLow (cd32 0)).clk.ext = false ∧ (clkLow (cd32 0)).lat.ie = true ∧
    (clkLow (cd32 0)).clk.ie = true ∧ (clkLow (cd32 0)).dw.wa = false ∧ (clkLow (cd32 0)).mode = .cd32 := by decide

theorem witness_WaitStamp :
    (idleAt 500).dw.wa = false ∧ (∃ t, runOps [.det, .tick 100, .wcl] (idleAt 500) = .next t) ∧
    (∃ e, runOps [.det, .tick 101] (idleAt 500) = .refused e) := ⟨rfl, ⟨_, rfl⟩, ⟨_, rfl⟩⟩

/-- Also for ProcIsAtomicForTheRegisters. -/
theorem witness_ProcDrivesTheLines :
    State.reset.par.Legal ∧ State.reset.dw.wa = false ∧ State.reset.mode = .normal ∧ (cd32 0).mode = .cd32 ∧
    (cd32 0).dw.wa = false ∧ (window 500 0 0).dw.wa = true ∧ Instr.lf.agent = .handler := by decide

/-- Also for EnableAndDisableAreIdempotent and OpenWindowBlocksThePollingContext. -/
theorem witness_EnableCd32Mode :
    (window 500 0 0).dw.wa = true ∧ State.reset.dw.wa = false ∧ Instr.en.agent = .polling ∧ Instr.en ≠ .wcl := by decide

theorem witness_DisableCd32Mode :
    (window 500 0 0).dw.wa = true ∧
    (State.reset.dw.wa = false ∧ State.reset.mode = .normal ∧ State.reset.lat.role = .out ∧
      State.reset.clk.role = .out) ∧
    ((cd32 0).dw.wa = false ∧ (cd32 0).mode = .cd32) ∧
    (({ cd32 0 with mode := .normal } : State).dw.wa = false ∧
      ({ cd32 0 with mode := .normal } : State).lat.role = .inpu) := by decide

/-- DET at 499 and at 500 ms, and with detection done. -/
theorem witness_DetectionPollOpensTheWindow :
    (window 500 0 0).dw.wa = true ∧
    ((idleAt 499).dw.wa = false ∧ ((idleAt 499).ms - (idleAt 499).dw.lc).toNat < 500) ∧
    ((idleAt 500).dw.wa = false ∧ (idleAt 500).dw.dd = false ∧ 500 ≤ ((idleAt 500).ms - (idleAt 500).dw.lc).toNat) ∧
    ({ State.reset with dw := { State.reset.dw with dd := true } } : State).dw.dd = true := by decide

/-- WCL at 599 and at 600 ms, on both sides of the decision. -/
theorem witness_WindowCloseDecidesTheMode :
    State.reset.dw.wa = false ∧
    ((window 599 0 0).dw.wa = true ∧ ((window 599 0 0).ms - (window 599 0 0).dw.ws).toNat < 100) ∧
    ((window 600 5 5).dw.wa = true ∧ 100 ≤ ((window 600 5 5).ms - (window 600 5 5).dw.ws).toNat ∧
      5 ≤ (window 600 5 5).dw.pl.toNat ∧ 5 ≤ (window 600 5 5).dw.pc.toNat) ∧
    ((window 600 5 4).dw.wa = true ∧ ¬ 5 ≤ (window 600 5 4).dw.pc.toNat) := by decide

theorem witness_WindowCloseDecidesTheMode_last_clause :
    (window 600 5 5).Inv ∧ ∃ t, exec .wcl (window 600 5 5) = .next t :=
  ⟨⟨by decide, by decide, by decide, by decide, by decide, by decide⟩, ⟨_, rfl⟩⟩

theorem witness_ConnectionResetClearsDetection : (window 500 0 0).dw.wa = true ∧ (cd32 0).dw.wa = false := by decide

theorem witness_TickIsManySingleTicks :
    State.reset.dw.wa = false ∧ (window 600 0 0).dw.wa = true ∧
    100 ≤ ((window 600 0 0).ms - (window 600 0 0).dw.ws).toNat ∧
    ((window 599 0 0).ms - (window 599 0 0).dw.ws).toNat < 100 := by decide

theorem witness_DetectionRunsOncePerConnection :
    (idleAt 500).dw.wa = false ∧ Instr.rst ∉ [Instr.tick 100, .wcl] ∧ ∃ s t u, exec .det (idleAt 500) = .next s ∧
      s.dw.wa = true ∧ runOps [.tick 100, .wcl] s = .next t ∧ exec .det t = .next u :=
  ⟨rfl, by decide, _, _, _, rfl, rfl, rfl, rfl⟩

theorem witness_ReadCycleCountsInTheWindow :
    (window 500 0 0).dw.wa = true ∧ (window 500 0 0).lat.ie = true ∧ (window 500 0 0).clk.ie = true ∧
    (window 500 0 0).lat.ext = true ∧ (window 500 0 0).clk.ext = true ∧ ∃ t, exec .wcl (window 600 0 0) = .next t :=
  ⟨rfl, rfl, rfl, rfl, rfl, ⟨_, rfl⟩⟩

/-- The poll counts on both sides of each threshold and the largest one, under both values of `CLK_FALL_IRQ`. -/
theorem witness_DetectionSelectsCd32FromEnoughPolls :
    (∀ n ∈ [0, 2, 3, 4, 5, 32767], n < 2 ^ 15) ∧ (idleAt 500).par.clkFallIrq = true ∧
    (noFallIrq (idleAt 500)).par.clkFallIrq = false ∧ ∀ s ∈ [idleAt 500, noFallIrq (idleAt 500)],
      s.dw.wa = false ∧ s.dw.dd = false ∧ 500 ≤ (s.ms - s.dw.lc).toNat ∧ s.lat.ext = true ∧ s.clk.ext = true := by
  decide

theorem witness_PayloadSkipsTheReportId :
    cfgB.reportIdPresent = true ∧ HidFieldConfig.a.reportIdPresent = false ∧ 3 + 1 < [1, 2, 3, 4, (5 : Byte)].length := by
  decide

theorem witness_FieldReadsItsBits : (9 : Nat) < 10 := by decide

/-- The narrowest admitted range, 0 to 2, and a reversed one. -/
theorem witness_SignedBranchIsUnreachable :
    0 < axisHalf ⟨0, 8, 0, 2⟩ - axisDz ⟨0, 8, 0, 2⟩ ∧ (AxisField.mk 0 8 200 100).logicalMin > 100 := by decide

theorem witness_NormalizationLaws :
    0 < axisHalf ⟨0, 8, 0, 255⟩ - axisDz ⟨0, 8, 0, 255⟩ ∧ (0 : Int) ≤ (AxisField.mk 0 8 0 255).logicalMin ∧
    ((127 : Nat) : Int) = axisMid ⟨0, 8, 0, 255⟩ ∧ iabs (129 - axisMid ⟨0, 8, 0, 255⟩) ≤ axisDz ⟨0, 8, 0, 255⟩ ∧
    ((0 : Nat) : Int) ≤ (AxisField.mk 0 8 0 255).logicalMin ∧ (AxisField.mk 0 8 0 255).logicalMax ≤ (255 : Nat) ∧
    [(0 : Fin 4), 1, 2, 3].Nodup := by decide

/-- Each case of DEC: reports of 0, 3 and 4 bytes under `cfg` A, a refused layout, an open window. -/
theorem witness_DecodeWritesTheGamepadState :
    State.reset.par.Legal ∧ State.reset.dw.wa = false ∧ admitted State.reset.cfg = true ∧ admitted cfgB = true ∧
    admitted cfgC = true ∧ admitted cfgBad = false ∧ (window 500 0 0).dw.wa = true ∧
    [1, 2, (3 : Byte)].length < State.reset.cfg.reportLength ∧
    State.reset.cfg.reportLength ≤ [1, 2, 3, (4 : Byte)].length := by decide

theorem witness_OnlyDecodeFails :
    (∃ t, exec (.dec []) State.reset = .next t ∧ t.failure ≠ State.reset.failure) ∧
    ∃ t, exec (.dec [1, 2, 3]) State.reset = .next t ∧ t.failure = some .shortRead :=
  ⟨⟨_, rfl, by decide⟩, ⟨_, rfl, by decide⟩⟩

theorem witness_OppositeDirectionsExclude :
    State.reset.par.Legal ∧ (nextOf (exec (.dec [0, 255, 0, 0]) State.reset)).map (·.failure) = some none := by decide

/-- Under `cfg` B the first and the sixth byte lie outside the payload. -/
theorem witness_BytesOutsideThePayloadAreIgnored :
    ([9, 0xFF, 0x7F, 1, 0, 0x4D] : List Byte) ≠ [] ∧ ([8, 0xFF, 0x7F, 1, 0] : List Byte) ≠ [] ∧
    cfgB.reportLength ≤ ([9, 0xFF, 0x7F, 1, 0, 0x4D] : List Byte).length ∧
    cfgB.reportLength ≤ ([8, 0xFF, 0x7F, 1, 0] : List Byte).length ∧
    ∀ a < cfgB.reportLength, skip cfgB ≤ a →
      ([9, 0xFF, 0x7F, 1, 0, 0x4D] : List Byte)[a]? = ([8, 0xFF, 0x7F, 1, 0] : List Byte)[a]? := by decide

theorem witness_FailedReportKeepsThePublishedState :
    State.reset.dw.wa = false ∧ admitted State.reset.cfg = true ∧
    ([1, 2, 3] : List Byte).length < State.reset.cfg.reportLength ∧
    State.reset.cfg.reportLength ≤ ([1, 2, 3, 4] : List Byte).length := by decide

theorem witness_RightAndButtonZeroDriveTwoLinesLow :
    State.reset.dw.wa = false ∧ State.reset.mode = .normal ∧ State.reset.par.Legal ∧ admitted State.reset.cfg = true ∧
    (0 : Int) ≤ State.reset.cfg.axis0.logicalMin ∧
    State.reset.cfg.reportLength ≤ ([0xFF, 0x7F, 1, 0] : List Byte).length ∧
    State.reset.cfg.axis0.logicalMax ≤ field (payload State.reset.cfg [0xFF, 0x7F, 1, 0]) 0 8 ∧
    axisValue (payload State.reset.cfg [0xFF, 0x7F, 1, 0]) State.reset.cfg.axis1 = 127 ∧
    ∀ b : Fin 12, pressed (payload State.reset.cfg [0xFF, 0x7F, 1, 0]) State.reset.cfg b = decide (b = 0) := by decide

end Sys2Proof.Tests
end

section
/-! The state after power-on reset (10_state.md R43, R49, R55). -/

namespace Sys2Proof.Proofs.PowerOn

open Sys2Proof.Machine

variable (p : Params) (c : HidFieldConfig) (le ce : Level) (ms ws : Word) (lw : BitVec 16) (sv : BitVec 3)

@[simp] theorem powerOn_lineOut (l : Line) : (State.powerOn p c le ce ms lw sv ws).lineOut l = true := by
  cases l with
  | dir i => fin_cases i <;> rfl
  | lat => rfl
  | clk => rfl
  | dat => rfl

@[simp] theorem powerOn_role (l : Line) : (State.powerOn p c le ce ms lw sv ws).role l = .out := by
  cases l <;> rfl

end Sys2Proof.Proofs.PowerOn

namespace Sys2Proof.Proofs

open Sys2Proof.Machine PowerOn

/-- Settles O12: the registers are the fields of `State.powerOn`, read off; the latches and roles of the seven lines
go line by line. -/
theorem powerOnRegisterValues : Obligations.PowerOnRegisterValues := by
  unfold Obligations.PowerOnRegisterValues
  constructor
  · rintro p c le ce ms ws lw sv s rfl
    have latches := powerOn_lineOut p c le ce ms ws lw sv
    have roles := powerOn_role p c le ce ms ws lw sv
    exact ⟨rfl, rfl, rfl, rfl, rfl, rfl, rfl, rfl, rfl, rfl, rfl, rfl, rfl, rfl, latches, roles, rfl, rfl, rfl, rfl⟩
  · exact ⟨Params.reference, HidFieldConfig.a, true, true, 0, 0, 0, 0, rfl⟩

end Sys2Proof.Proofs
end

section
/-! A bit field of the payload, bit by bit (20_memory.md R73, 40_report_decoder.md R143). -/

namespace Sys2Proof.Proofs.PayloadField

open Sys2Proof.Machine

theorem field_lt_two_pow (p : List Byte) (off size : Nat) : field p off size < 2 ^ size := by
  induction size with
  | zero => exact Nat.one_pos
  | succ n ih =>
    have topBit : payloadBit p (off + n) * 2 ^ n ≤ 1 * 2 ^ n :=
      Nat.mul_le_mul_right _ (Nat.le_of_lt_succ (Nat.mod_lt _ Nat.two_pos))
    rw [field_succ, Nat.pow_succ]
    omega

/-- The last bit added stands above the smaller field, so every bit keeps its place. -/
theorem testBit_field (p : List Byte) (off : Nat) {size i : Nat} (h : i < size) :
    (field p off size).testBit i = (memRead p ((off + i) / 8)).getLsbD ((off + i) % 8) := by
  induction size with
  | zero => exact absurd h i.not_lt_zero
  | succ n ih =>
    rw [field_succ, Nat.add_comm, Nat.mul_comm, Nat.testBit_two_pow_mul_add _ (field_lt_two_pow p off n)]
    split
    case isTrue hlt => exact ih hlt
    case isFalse hge =>
      obtain rfl : i = n := by omega
      rw [Nat.sub_self, payloadBit_eq, Nat.testBit_bool_toNat]
      simp

theorem field_eq_sum (p : List Byte) (off size : Nat) :
    field p off size = ((List.range size).map fun i => payloadBit p (off + i) * 2 ^ i).sum := by
  induction size with
  | zero => rfl
  | succ n ih => rw [field_succ, ih, List.sum_range_succ]

end Sys2Proof.Proofs.PayloadField

namespace Sys2Proof.Proofs

open Sys2Proof.Machine PayloadField

/-- Settles O48: bound, bits and sum each by induction on the size. The third clause is `field_eq_sum` with
`payloadBit` written out. -/
theorem fieldReadsItsBitsLeastSignificantFirst : Obligations.FieldReadsItsBitsLeastSignificantFirst := by
  unfold Obligations.FieldReadsItsBitsLeastSignificantFirst
  intro p off size
  exact ⟨field_lt_two_pow p off size, fun _ h => testBit_field p off h, field_eq_sum p off size⟩

end Sys2Proof.Proofs
end

section
/-! Which operations keep the mode (41_mode_controller.md R177). -/

namespace Sys2Proof.Proofs.ModeFrame

open Sys2Proof.Machine

/-- The handler keeps the mode as far as the protocol action does. -/
theorem deliverEdge_mode (l : InLine) {act : State → State} (hact : ∀ s, (act s).mode = s.mode) (s : State) :
    (deliverEdge l act s).mode = s.mode :=
  deliverEdge_keeps (P := fun u => u.mode = s.mode) rfl (countEdge_mode s l) (hact s)

/-- Each case reads the next state off the operation's inversion lemma; its named updates keep the mode. -/
theorem exec_mode_of_ne {i : Instr} {s t : State} (h : exec i s = .next t) (hen : i ≠ .en) (hdis : i ≠ .dis)
    (hwcl : i ≠ .wcl) (hrst : i ≠ .rst) : t.mode = s.mode := by
  cases i with
  | lf =>
    obtain ⟨_, rfl⟩ := exec_lf_eq_next.1 h
    rw [deliverEdge_mode _ latchFallAction_mode, setExt_mode]
  | lr =>
    obtain ⟨_, rfl⟩ := exec_lr_eq_next.1 h
    rw [deliverEdge_mode _ latchRiseAction_mode, setExt_mode]
  | cf =>
    obtain ⟨_, rfl⟩ := exec_cf_eq_next.1 h
    cases s.par.clkFallIrq with
    | false => exact setExt_mode ..
    | true => exact (deliverEdge_mode _ (fun _ => rfl) _).trans (setExt_mode ..)
  | cr =>
    obtain ⟨_, rfl⟩ := exec_cr_eq_next.1 h
    rw [deliverEdge_mode _ clockRiseAction_mode, setExt_mode]
  | proc dp ex =>
    obtain ⟨_, rfl⟩ := exec_proc_eq_next.1 h
    rw [procButtons_mode, procWord_mode, procDirections_mode]
  | en => exact absurd rfl hen
  | dis => exact absurd rfl hdis
  | det =>
    obtain ⟨_, rfl⟩ := exec_det_eq_next.1 h
    cases s.dw.dd || !settled s.ms s.dw.lc with
    | false => exact (stampWait_mode _).trans (listenLines_mode _)
    | true => rfl
  | wcl => exact absurd rfl hwcl
  | rst => exact absurd rfl hrst
  | dec raw =>
    obtain ⟨_, _, rfl⟩ := exec_dec_eq_next.1 h
    split
    · rfl
    · split <;> rfl
  | tick k =>
    obtain ⟨_, rfl⟩ := exec_tick_eq_next.1 h
    exact advanceMs_mode s k

end Sys2Proof.Proofs.ModeFrame

namespace Sys2Proof.Proofs

open Sys2Proof.Machine ModeFrame

/-- Settles O20: every operation but the four keeps the mode, and the four are of the polling context. -/
theorem modeChangesOnlyInThePollingContext : Obligations.ModeChangesOnlyInThePollingContext := by
  unfold Obligations.ModeChangesOnlyInThePollingContext
  intro i s t h hmode
  have isOneOfFour : i = .en ∨ i = .dis ∨ i = .wcl ∨ i = .rst := by
    by_contra! hne
    obtain ⟨hen, hdis, hwcl, hrst⟩ := hne
    exact hmode (exec_mode_of_ne h hen hdis hwcl hrst)
  have polling : i.agent = .polling := by
    rcases isOneOfFour with rfl | rfl | rfl | rfl <;> rfl
  exact ⟨polling, isOneOfFour⟩

end Sys2Proof.Proofs
end

section
/-! The remapped word as a number and as a function of eight bits (41_mode_controller.md R174). -/

namespace Sys2Proof.Proofs.Remap

open Sys2Proof.Machine

/-- A bit appended at the low end doubles the number above it. -/
theorem toNat_append_ofBool {w : Nat} (x : BitVec w) (b : Bool) :
    (x ++ BitVec.ofBool b).toNat = x.toNat * 2 + b.toNat := BitVec.toNat_concat x b

/-- The seven button bits are appended to the constant head `0b000000110`, one after the other. -/
theorem toNat_remap (dp ex : Byte) :
    (remap dp ex).toNat = 0x0300 + (dp.getLsbD 5).toNat + 2 * (dp.getLsbD 6).toNat + 4 * (dp.getLsbD 4).toNat +
      8 * (dp.getLsbD 7).toNat + 16 * (ex.getLsbD 1).toNat + 32 * (ex.getLsbD 0).toNat +
      64 * (ex.getLsbD 4 || ex.getLsbD 5).toNat := by
  have head : (0#6 ++ 1#1 ++ 1#1 ++ 0#1).toNat = 6 := rfl
  simp only [remap, toNat_append_ofBool, head]
  omega

/-- `w[15:7]` is constant, so the seven low bits alone span the range. -/
theorem remap_range (dp ex : Byte) : 0x0300 ≤ (remap dp ex).toNat ∧ (remap dp ex).toNat ≤ 0x037F := by
  have h5 := (dp.getLsbD 5).toNat_le
  have h6 := (dp.getLsbD 6).toNat_le
  have h4 := (dp.getLsbD 4).toNat_le
  have h7 := (dp.getLsbD 7).toNat_le
  have e1 := (ex.getLsbD 1).toNat_le
  have e0 := (ex.getLsbD 0).toNat_le
  have e45 := (ex.getLsbD 4 || ex.getLsbD 5).toNat_le
  rw [toNat_remap]
  omega

/-- The masks keep exactly the bits that the remap reads: `dp[7:4]` and `ex[5], ex[4], ex[1], ex[0]`. -/
theorem remap_masked (dp ex : Byte) : remap (dp &&& 0xF0) (ex &&& 0x33) = remap dp ex := by
  simp [remap]

end Sys2Proof.Proofs.Remap

namespace Sys2Proof.Proofs

open Sys2Proof.Machine Remap

/-- Settles O33: the sum of weighted bits, the range that follows from it, and the masked operands. -/
theorem remapFollowsTheTable : Obligations.RemapFollowsTheTable := by
  unfold Obligations.RemapFollowsTheTable
  intro dp ex
  obtain ⟨low, high⟩ := remap_range dp ex
  exact ⟨toNat_remap dp ex, low, high, remap_masked dp ex⟩

end Sys2Proof.Proofs
end

section
/-! EN and DIS in the open window and outside it (41_mode_controller.md R172, R173). -/

namespace Sys2Proof.Proofs.ModeSwitch

open Sys2Proof.Machine

theorem exec_en_busy {s : State} (h : s.dw.wa = true) : exec .en s = .refused .pollingBusy := by
  rw [exec, execEn, whenPollingFree_busy h]

theorem exec_dis_busy {s : State} (h : s.dw.wa = true) : exec .dis s = .refused .pollingBusy := by
  rw [exec, execDis, whenPollingFree_busy h]

/-- The first branch of `disable_cd32_mode()` (R173). -/
theorem disableCd32_of_inPlace {s : State} (hm : s.mode = .normal) (hl : s.lat.role = .out) (hc : s.clk.role = .out) :
    disableCd32 s = s := if_pos ⟨hm, hl, hc⟩

/-- The second branch of `disable_cd32_mode()` (R173). -/
theorem disableCd32_of_notInPlace {s : State} (h : s.mode = .cd32 ∨ s.lat.role = .inpu ∨ s.clk.role = .inpu) :
    disableCd32 s = { releaseLines s with mode := .normal } := by
  refine if_neg ?_
  rintro ⟨hm, hl, hc⟩
  simp [hm, hl, hc] at h

end Sys2Proof.Proofs.ModeSwitch

namespace Sys2Proof.Proofs

open Sys2Proof.Machine ModeSwitch

/-- Settles O36: `enableCd32` is the five writes. -/
theorem enableCd32Mode : Obligations.EnableCd32Mode := by
  unfold Obligations.EnableCd32Mode
  exact ⟨rfl, fun _ => ⟨exec_en_busy, fun hfree => exec_en_eq_next.2 ⟨hfree, rfl⟩⟩⟩

/-- Settles O37: the two branches of `disableCd32`, of which the second is the seven writes. -/
theorem disableCd32Mode : Obligations.DisableCd32Mode := by
  unfold Obligations.DisableCd32Mode
  refine ⟨rfl, fun s => ⟨exec_dis_busy, fun hfree hm hl hc => ?_, fun hfree h => ?_⟩⟩
  · exact exec_dis_eq_next.2 ⟨hfree, disableCd32_of_inPlace hm hl hc⟩
  · exact exec_dis_eq_next.2 ⟨hfree, disableCd32_of_notInPlace h⟩

end Sys2Proof.Proofs
end

section
/-! The four edges in every case (42_shift_engine.md R200 to R204), and two that arrive together (R208). -/

namespace Sys2Proof.Proofs.EdgeOutcome

open Sys2Proof.Machine

/-! The five outcomes of an edge, one for each answer of `edge`, `deliverEdge` and `handlerBody` (R200). -/

section

variable (l : InLine) (v : Level) (act : State → State) {s : State}

theorem edge_refused (hext : (s.pin l).ext = v) : edge l v act s = .refused (.noSuchEdge l) := by
  simp [edge, hext]

/-- An edge that can happen is delivered. -/
theorem edge_delivered (hext : (s.pin l).ext = !v) : edge l v act s = .next (deliverEdge l act (s.setExt l v)) :=
  edge_eq_next.2 ⟨by simp [hext], rfl⟩

@[simp] theorem setExt_pin_ie : ((s.setExt l v).pin l).ie = (s.pin l).ie := by cases l <;> rfl

theorem edge_disabled (hext : (s.pin l).ext = !v) (hie : (s.pin l).ie = false) :
    edge l v act s = .next (s.setExt l v) := by
  rw [edge_delivered l v act hext, deliverEdge, setExt_pin_ie, hie, cond_false]

/-- An edge that can happen, with its interrupt enabled, runs the handler. -/
theorem edge_handled (hext : (s.pin l).ext = !v) (hie : (s.pin l).ie = true) :
    edge l v act s = .next (handlerBody l act (s.setExt l v)) := by
  rw [edge_delivered l v act hext, deliverEdge, setExt_pin_ie, hie, cond_true]

theorem edge_counted (hext : (s.pin l).ext = !v) (hie : (s.pin l).ie = true) (hwa : s.dw.wa = true) :
    edge l v act s = .next (countEdge l (s.setExt l v)) := by
  rw [edge_handled l v act hext hie]
  simp [handlerBody, acknowledge, hwa]

theorem edge_normal (hext : (s.pin l).ext = !v) (hie : (s.pin l).ie = true) (hwa : s.dw.wa = false)
    (hmode : s.mode = .normal) : edge l v act s = .next (s.setExt l v) := by
  rw [edge_handled l v act hext hie]
  simp [handlerBody, acknowledge, hwa, hmode]

theorem edge_cd32 (hext : (s.pin l).ext = !v) (hie : (s.pin l).ie = true) (hwa : s.dw.wa = false)
    (hmode : s.mode = .cd32) : edge l v act s = .next (act (s.setExt l v)) := by
  rw [edge_handled l v act hext hie]
  simp [handlerBody, acknowledge, hwa, hmode]

end

section

variable {s : State}

/-! The protocol actions (R201, R203). -/

theorem savedLevels_getLsbD (s : State) : (savedLevels s).getLsbD 0 = s.lat.olat ∧
    (savedLevels s).getLsbD 1 = s.clk.olat ∧ (savedLevels s).getLsbD 2 = s.dat := by
  simp only [savedLevels, BitVec.getLsbD_append]
  simp

theorem clockRiseAction_of_lt (h : s.sh.idx.toNat < 9) :
    clockRiseAction s =
      { s with sh := { s.sh with idx := s.sh.idx + 1 }, dat := !s.sh.lw.getLsbD (s.sh.idx.toNat + 1) } := by
  have noWrap : (s.sh.idx + 1).toNat = s.sh.idx.toNat + 1 := by bv_omega
  rw [clockRiseAction, if_pos (BitVec.lt_def.2 h), noWrap]

theorem clockRiseAction_of_ge (h : 9 ≤ s.sh.idx.toNat) : clockRiseAction s = s :=
  if_neg fun hlt => Nat.not_lt.2 h (BitVec.lt_def.1 hlt)

/-! CF, whose edge interrupts only when `CLK_FALL_IRQ` is true (R204). -/

theorem exec_cf_of_fallIrq (h : s.par.clkFallIrq = true) : exec .cf s = edge .clk false clockFallAction s := by
  rw [exec, execCf, h, cond_true]

theorem exec_cf_of_noFallIrq (h : s.par.clkFallIrq = false) (hext : s.clk.ext = true) :
    exec .cf s = .next (s.setExt .clk false) := by
  rw [exec, execCf, h, hext, cond_false, cond_true]

theorem exec_cf_refused (hext : s.clk.ext = false) : exec .cf s = .refused (.noSuchEdge .clk) := by
  cases h : s.par.clkFallIrq with
  | false => rw [exec, execCf, h, hext, cond_false, cond_false]
  | true => rw [exec_cf_of_fallIrq h, edge_refused .clk false clockFallAction hext]

theorem exec_cf_of_disabled (hext : s.clk.ext = true) (hie : s.clk.ie = false) :
    exec .cf s = .next (s.setExt .clk false) := by
  cases hirq : s.par.clkFallIrq with
  | false => exact exec_cf_of_noFallIrq hirq hext
  | true => exact (exec_cf_of_fallIrq hirq).trans (edge_disabled .clk false clockFallAction hext hie)

/-- `clockFallAction` does nothing, so outside the window CF does not depend on the mode. -/
theorem exec_cf_of_windowClosed (hext : s.clk.ext = true) (hwa : s.dw.wa = false) :
    exec .cf s = .next (s.setExt .clk false) := by
  cases hirq : s.par.clkFallIrq with
  | false => exact exec_cf_of_noFallIrq hirq hext
  | true =>
    rw [exec_cf_of_fallIrq hirq]
    cases hie : s.clk.ie with
    | false => exact edge_disabled .clk false clockFallAction hext hie
    | true =>
      cases hmode : s.mode with
      | normal => exact edge_normal .clk false clockFallAction hext hie hwa hmode
      | cd32 => exact edge_cd32 .clk false clockFallAction hext hie hwa hmode

theorem runOps_pair {i j : Instr} {u t : State} (hi : exec i s = .next u) (hj : exec j u = .next t) :
    runOps [i, j] s = .next t := by
  rw [runOps_cons, hi, andThen_next, runOps_cons, hj, andThen_next, runOps_nil]

end

end Sys2Proof.Proofs.EdgeOutcome

namespace Sys2Proof.Proofs

open Sys2Proof.Machine EdgeOutcome

/-- Settles O23: the five outcomes of a falling Latch edge; the word saved is `savedLevels`. -/
theorem latchFallingEdge : Obligations.LatchFallingEdge := by
  unfold Obligations.LatchFallingEdge
  refine ⟨rfl, fun s => ⟨edge_refused .lat false latchFallAction, edge_disabled .lat false latchFallAction,
    edge_counted .lat false latchFallAction, edge_normal .lat false latchFallAction, fun hext hie hwa hmode => ?_⟩⟩
  obtain ⟨lat, clk, dat⟩ := savedLevels_getLsbD s
  exact ⟨savedLevels s, lat, clk, dat, edge_cd32 .lat false latchFallAction hext hie hwa hmode⟩

/-- Settles O24: the five outcomes of a rising Latch edge. -/
theorem latchRisingEdge : Obligations.LatchRisingEdge := by
  unfold Obligations.LatchRisingEdge
  exact ⟨rfl, fun s => ⟨edge_refused .lat true latchRiseAction, edge_disabled .lat true latchRiseAction,
    edge_counted .lat true latchRiseAction, edge_normal .lat true latchRiseAction,
    edge_cd32 .lat true latchRiseAction⟩⟩

/-- Settles O25: the five outcomes of a rising Clock edge, the acting one split at index 9. -/
theorem clockRisingEdge : Obligations.ClockRisingEdge := by
  unfold Obligations.ClockRisingEdge
  refine ⟨rfl, fun s => ⟨edge_refused .clk true clockRiseAction, edge_disabled .clk true clockRiseAction,
    edge_counted .clk true clockRiseAction, edge_normal .clk true clockRiseAction,
    fun hext hie hwa hmode hidx => ?_, fun hext hie hwa hmode hidx => ?_⟩⟩
  · have acts := edge_cd32 .clk true clockRiseAction hext hie hwa hmode
    rwa [clockRiseAction_of_ge (by rwa [setExt_sh])] at acts
  · have acts := edge_cd32 .clk true clockRiseAction hext hie hwa hmode
    rwa [clockRiseAction_of_lt (by rwa [setExt_sh])] at acts

/-- Settles O26: outside the counting case, either the edge raises no interrupt, or it is not delivered, or the window
is closed. -/
theorem clockFallingEdge : Obligations.ClockFallingEdge := by
  unfold Obligations.ClockFallingEdge
  refine ⟨rfl, fun s => ⟨exec_cf_refused, fun hext hirq hie hwa => ?_, fun hext hcase => ?_⟩⟩
  · exact (exec_cf_of_fallIrq hirq).trans (edge_counted .clk false clockFallAction hext hie hwa)
  · obtain hirq | hie | hwa := hcase
    · exact exec_cf_of_noFallIrq hirq hext
    · exact exec_cf_of_disabled hext hie
    · exact exec_cf_of_windowClosed hext hwa

/-- Settles O30: in either order the second edge still acts, because the first keeps what its delivery reads. -/
theorem simultaneousEdgesRunInBothOrders : Obligations.SimultaneousEdgesRunInBothOrders := by
  unfold Obligations.SimultaneousEdgesRunInBothOrders
  intro s hlat hclk hlie hcie hwa hmode
  constructor
  · have falls : exec .lf s = .next (latchFallAction (s.setExt .lat false)) :=
      edge_cd32 .lat false latchFallAction hlat hlie hwa hmode
    exact ⟨_, runOps_pair falls (edge_cd32 .clk true clockRiseAction hclk hcie hwa hmode), rfl, rfl⟩
  · have rises : exec .cr s = .next (clockRiseAction (s.setExt .clk true)) :=
      edge_cd32 .clk true clockRiseAction hclk hcie hwa hmode
    have falls := edge_cd32 .lat false latchFallAction (s := clockRiseAction (s.setExt .clk true))
      (by simpa [State.pin] using hlat) (by simpa [State.pin] using hlie) (by simpa using hwa) (by simpa using hmode)
    exact ⟨_, runOps_pair rises falls, by simp, by simp⟩

end Sys2Proof.Proofs
end

section
/-! DET and WCL in every case (43_autodetector.md R231, R232). -/

namespace Sys2Proof.Proofs.Detection

open Sys2Proof.Machine

variable {s : State}

/-! DET (R231): refused, nothing to do, or the window opens. -/

theorem exec_det_busy (h : s.dw.wa = true) : exec .det s = .refused .pollingBusy := by
  rw [exec, execDet, whenPollingFree_busy h]

theorem exec_det_of_notDue (hwa : s.dw.wa = false) (h : s.dw.dd = true ∨ elapsed s.ms s.dw.lc < 500) :
    exec .det s = .next s := by
  refine exec_det_eq_next.2 ⟨hwa, ?_⟩
  obtain hdone | hearly := h
  · rw [hdone, Bool.true_or, cond_true]
  · rw [settled_eq_false.2 hearly, Bool.not_false, Bool.or_true, cond_true]

theorem exec_det_of_due (hwa : s.dw.wa = false) (hdd : s.dw.dd = false) (h : 500 ≤ elapsed s.ms s.dw.lc) :
    exec .det s = .next (listenLines s.openWindow).stampWait := by
  refine exec_det_eq_next.2 ⟨hwa, ?_⟩
  rw [hdd, settled_eq_true.2 h, Bool.not_true, Bool.or_false, cond_false]

/-! WCL (R232): refused twice over, or the decision on the state with the window closed. -/

theorem exec_wcl_notOpen (h : s.dw.wa = false) : exec .wcl s = .refused .windowNotOpen := by
  rw [exec, execWcl, h, cond_false]

theorem exec_wcl_early (hwa : s.dw.wa = true) (h : elapsed s.ms s.dw.ws < 100) :
    exec .wcl s = .refused .waitNotOver := by
  rw [exec, execWcl, hwa, waitOver_eq_false.2 h, cond_true, cond_false]

theorem exec_wcl_over (hwa : s.dw.wa = true) (h : 100 ≤ elapsed s.ms s.dw.ws) :
    exec .wcl s = .next (decideMode s.closeWindow) :=
  exec_wcl_eq_next.2 ⟨hwa, waitOver_eq_true.2 h, rfl⟩

/-- With the window closed, the decision is the operation EN or the operation DIS. -/
theorem exec_en_or_dis_eq_decideMode (hwa : s.dw.wa = false) :
    exec (if 5 ≤ s.dw.pl.toNat ∧ 5 ≤ s.dw.pc.toNat then .en else .dis) s = .next (decideMode s) := by
  split
  · next reached =>
    rw [decideMode, sawCd32_eq_true.2 reached, cond_true]
    exact exec_en_eq_next.2 ⟨hwa, rfl⟩
  · next notReached =>
    rw [decideMode, Bool.eq_false_iff.2 (mt sawCd32_eq_true.1 notReached), cond_false]
    exact exec_dis_eq_next.2 ⟨hwa, rfl⟩

/-- WCL waits for 100 ms, and the invariant lets an open window grow no older. -/
theorem exec_wcl_elapsed (hinv : s.Inv) {t : State} (h : exec .wcl s = .next t) : elapsed s.ms s.dw.ws = 100 := by
  obtain ⟨hwa, hover, _⟩ := exec_wcl_eq_next.1 h
  obtain ⟨_, atMost⟩ := hinv.window hwa
  exact Nat.le_antisymm atMost (waitOver_eq_true.1 hover)

end Sys2Proof.Proofs.Detection

namespace Sys2Proof.Proofs

open Sys2Proof.Machine Detection

/-- Settles O39: the three outcomes of DET, of which the last is `openWindow`, `listenLines` and `stampWait` written
out. -/
theorem detectionPollOpensTheWindow : Obligations.DetectionPollOpensTheWindow := by
  unfold Obligations.DetectionPollOpensTheWindow
  exact ⟨rfl, fun _ => ⟨exec_det_busy, exec_det_of_notDue, exec_det_of_due⟩⟩

/-- Settles O40: both sides of the third clause are `decideMode` of the closed window. -/
theorem windowCloseDecidesTheMode : Obligations.WindowCloseDecidesTheMode := by
  unfold Obligations.WindowCloseDecidesTheMode
  refine ⟨rfl, fun s => ⟨exec_wcl_notOpen, exec_wcl_early, fun hwa hover => ?_, fun hinv _ => exec_wcl_elapsed hinv⟩⟩
  have closes := exec_wcl_over hwa hover
  have decides := exec_en_or_dis_eq_decideMode (s := s.closeWindow) rfl
  exact ⟨⟨_, closes⟩, closes.trans decides.symm⟩

end Sys2Proof.Proofs
end

section
/-! TICK as single ticks (43_autodetector.md R234). -/

namespace Sys2Proof.Proofs.Ticks

open Sys2Proof.Machine

theorem advanceMs_zero (s : State) : s.advanceMs 0 = s := by
  rw [State.advanceMs, BitVec.add_zero]

theorem advanceMs_advanceMs (s : State) (j k : Nat) : (s.advanceMs j).advanceMs k = s.advanceMs (j + k) := by
  rw [State.advanceMs, advanceMs_ms_written, BitVec.add_assoc, ← BitVec.ofNat_add]
  rfl

theorem mayTick_of_open {k : Nat} {now ws : Word} :
    mayTick k true now ws = true ↔ k = 0 ∨ elapsed now ws + k ≤ 100 :=
  mayTick_eq_true.trans (by rw [eq_self, true_imp_iff])

/-- Before the end of the window the elapsed time does not wrap. -/
theorem elapsed_succ {now ws : Word} (h : elapsed now ws < 100) : elapsed (now + 1) ws = elapsed now ws + 1 :=
  (elapsed_add now ws 1).trans (Nat.mod_eq_of_lt (by omega))

theorem mayTick_succ {k : Nat} {now ws : Word} (h : elapsed now ws < 100) :
    mayTick (k + 1) true now ws = mayTick k true (now + 1) ws := by
  rw [Bool.eq_iff_iff, mayTick_of_open, mayTick_of_open, elapsed_succ h]
  omega

theorem singleTick_held {s : State} (hwa : s.dw.wa = true) (h : 100 ≤ elapsed s.ms s.dw.ws) :
    singleTick s = .refused .timeHeld := by
  rw [singleTick, hwa, waitOver_eq_true.2 h, Bool.and_true, cond_true]

theorem singleTick_runs {s : State} (h : s.dw.wa = false ∨ elapsed s.ms s.dw.ws < 100) :
    singleTick s = .next (s.advanceMs 1) := by
  obtain hclosed | hearly := h
  · rw [singleTick, hclosed, Bool.false_and, cond_false]
  · rw [singleTick, waitOver_eq_false.2 hearly, Bool.and_false, cond_false]

theorem execTick_zero (s : State) : execTick 0 s = .next s :=
  exec_tick_eq_next.2 ⟨mayTick_eq_true.2 fun _ => .inl rfl, advanceMs_zero s⟩

theorem execTick_of_closed (k : Nat) {s : State} (h : s.dw.wa = false) : execTick k s = .next (s.advanceMs k) :=
  exec_tick_eq_next.2 ⟨mayTick_eq_true.2 (by simp [h]), rfl⟩

/-- The first tick is held where the whole TICK is, and otherwise leaves a TICK of the rest to decide. -/
theorem execTick_succ (k : Nat) (s : State) : execTick (k + 1) s = andThen (singleTick s) (execTick k) := by
  cases hwa : s.dw.wa with
  | false =>
    rw [singleTick_runs (.inl hwa), andThen_next, execTick_of_closed (k + 1) hwa,
      execTick_of_closed k (s := s.advanceMs 1) hwa, advanceMs_advanceMs, Nat.add_comm]
  | true =>
    obtain hearly | hover := Nat.lt_or_ge (elapsed s.ms s.dw.ws) 100
    · rw [singleTick_runs (.inr hearly), andThen_next, execTick, execTick, advanceMs_advanceMs, Nat.add_comm 1 k,
        advanceMs_dw, hwa, mayTick_succ hearly]
      rfl
    · have held : mayTick (k + 1) true s.ms s.dw.ws = false := by
        rw [Bool.eq_false_iff, Ne, mayTick_of_open]
        omega
      rw [singleTick_held hwa hover, andThen_refused, execTick, hwa, held, cond_false]

theorem execTick_eq_manyTicks (k : Nat) (s : State) : execTick k s = manyTicks k s := by
  induction k generalizing s with
  | zero => exact execTick_zero s
  | succ k ih => rw [execTick_succ, manyTicks, funext ih]

/-- The two outcomes of a single tick. -/
theorem singleTick_eq (s : State) : singleTick s =
    if s.dw.wa = true ∧ 100 ≤ elapsed s.ms s.dw.ws then .refused .timeHeld else .next (s.advanceMs 1) := by
  split
  · next held =>
    obtain ⟨hwa, hover⟩ := held
    exact singleTick_held hwa hover
  · next runs =>
    rw [not_and_or, Bool.not_eq_true, Nat.not_le] at runs
    exact singleTick_runs runs

end Sys2Proof.Proofs.Ticks

namespace Sys2Proof.Proofs

open Sys2Proof.Machine Ticks

/-- Settles O42, by induction on the number of ticks. -/
theorem tickIsManySingleTicks : Obligations.TickIsManySingleTicks := by
  unfold Obligations.TickIsManySingleTicks
  exact ⟨execTick_eq_manyTicks, singleTick_eq, ⟨rfl, execTick_zero⟩, fun k _ => execTick_of_closed k⟩

end Sys2Proof.Proofs
end

section
/-! The operation words: decoding the words of an operation, and what a list of words that decodes looks like
(30_encoding.md R110 to R114). -/

namespace Sys2Proof.Proofs.Codec

open Sys2Proof.Machine

/-! What each format reads. -/

section

variable {w : Word} {ws rest : List Word} {i j : Instr}

theorem decodeZ_eq_ok : decodeZ j w ws = .ok (i, rest) ↔ operandOf w = 0 ∧ j = i ∧ ws = rest := by
  simp [decodeZ, ite_eq_iff]

theorem decodeP_eq_ok :
    decodeP w ws = .ok (i, rest) ↔ byteOf w 2 = 0 ∧ .proc (byteOf w 0) (byteOf w 1) = i ∧ ws = rest := by
  simp [decodeP, ite_eq_iff]

theorem decodeT_eq_ok : decodeT w ws = .ok (i, rest) ↔ .tick (operandOf w).toNat = i ∧ ws = rest := by
  simp [decodeT]

/-- A DEC reads as many bytes as its first word says, from data words that hold exactly these bytes (R113). -/
theorem decodeD_eq_ok (h : decodeD w ws = .ok (i, rest)) :
    (byteOf w 1 = 0 ∧ byteOf w 2 = 0) ∧
      ∃ raw : List Byte, raw.length = (byteOf w 0).toNat ∧ ws = packBytes raw ++ rest ∧ i = .dec raw := by
  unfold decodeD at h
  split at h
  · next spare =>
    split at h
    · next raw rest' hunpack =>
      obtain ⟨rfl, rfl⟩ : .dec raw = i ∧ rest' = rest := by simpa using h
      obtain ⟨hlength, hwords⟩ := unpackBytes_eq_ok _ _ _ _ hunpack
      exact ⟨spare, raw, hlength, hwords, rfl⟩
    · exact nomatch h
  · exact nomatch h

end

/-! From an operation to its words. -/

theorem decodeD_packBytes (raw : List Byte) (rest : List Word) (h : raw.length ≤ 255) :
    decodeD (wordOfBytes 0x40 0 0 (BitVec.ofNat 8 raw.length)) (packBytes raw ++ rest) = .ok (.dec raw, rest) := by
  have hcount : (BitVec.ofNat 8 raw.length).toNat = raw.length := by
    rw [BitVec.toNat_ofNat, Nat.mod_eq_of_lt (by omega)]
  simp [decodeD, hcount, unpackBytes_packBytes]

theorem decode_proc (dp ex : Byte) (rest : List Word) :
    decode (wordOfBytes 0x10 0 ex dp :: rest) = .ok (.proc dp ex, rest) := by
  simp [decode, opcodeOf_eq_byteOf, decodeP]

theorem decode_tick (k : BitVec 24) (rest : List Word) :
    decode (headWord 0x50 k :: rest) = .ok (.tick k.toNat, rest) := by
  simp [decode, decodeT]

/-- A DEC word goes to format D. -/
theorem decode_decWord (n : Byte) (ws : List Word) :
    decode (wordOfBytes 0x40 0 0 n :: ws) = decodeD (wordOfBytes 0x40 0 0 n) ws := by
  simp [decode, opcodeOf_eq_byteOf]

/-- Decoding the words of a well-formed operation gives it back. -/
theorem decode_encode (i : Instr) (rest : List Word) (h : i.wf = true) : decode (encode i ++ rest) = .ok (i, rest) := by
  cases i with
  | lf | lr | cf | cr | en | dis | det | wcl | rst => rfl
  | proc dp ex => exact decode_proc dp ex rest
  | dec raw => exact (decode_decWord _ _).trans (decodeD_packBytes raw rest (of_decide_eq_true h))
  | tick k =>
    have hk : (BitVec.ofNat 24 k).toNat = k := by
      rw [BitVec.toNat_ofNat, Nat.mod_eq_of_lt (of_decide_eq_true h)]
    exact (decode_tick _ rest).trans (by rw [hk])

/-! From words to the operation. -/

/-- `i` is well formed and the words `ws` are its encoding, with `rest` after it. -/
def IsEncodingOf (i : Instr) (ws rest : List Word) : Prop := i.wf = true ∧ ws = encode i ++ rest

section

variable {w : Word} {ws rest : List Word} {i : Instr}

/-- A word of format Z is its opcode, the operand field being 0. -/
theorem isEncodingOf_of_decodeZ {j : Instr} {op : BitVec 8} (hop : opcodeOf w = op) (hwf : j.wf = true)
    (hj : encode j = [headWord op 0]) (h : decodeZ j w ws = .ok (i, rest)) : IsEncodingOf i (w :: ws) rest := by
  obtain ⟨hoperand, rfl, rfl⟩ := decodeZ_eq_ok.1 h
  refine ⟨hwf, ?_⟩
  rw [hj, ← headWord_eta w, hop, hoperand]
  rfl

theorem isEncodingOf_of_decodeP (hop : opcodeOf w = 0x10) (h : decodeP w ws = .ok (i, rest)) :
    IsEncodingOf i (w :: ws) rest := by
  obtain ⟨hspare, rfl, rfl⟩ := decodeP_eq_ok.1 h
  refine ⟨rfl, ?_⟩
  rw [encode, ← hop, opcodeOf_eq_byteOf, ← hspare, wordOfBytes_eta]
  rfl

theorem isEncodingOf_of_decodeD (hop : opcodeOf w = 0x40) (h : decodeD w ws = .ok (i, rest)) :
    IsEncodingOf i (w :: ws) rest := by
  obtain ⟨⟨hspare₁, hspare₂⟩, raw, hlength, rfl, rfl⟩ := decodeD_eq_ok h
  have hcount : BitVec.ofNat 8 raw.length = byteOf w 0 := by rw [hlength, BitVec.ofNat_toNat, BitVec.setWidth_eq]
  have hword : wordOfBytes 0x40 0 0 (byteOf w 0) = w := by
    conv => rhs; rw [← wordOfBytes_eta w, ← opcodeOf_eq_byteOf, hop, hspare₁, hspare₂]
  refine ⟨decide_eq_true ?_, ?_⟩
  · have := (byteOf w 0).isLt
    omega
  · rw [encode, hcount, hword]
    rfl

theorem isEncodingOf_of_decodeT (hop : opcodeOf w = 0x50) (h : decodeT w ws = .ok (i, rest)) :
    IsEncodingOf i (w :: ws) rest := by
  obtain ⟨rfl, rfl⟩ := decodeT_eq_ok.1 h
  refine ⟨decide_eq_true (operandOf w).isLt, ?_⟩
  rw [encode, BitVec.ofNat_toNat, BitVec.setWidth_eq, ← hop, headWord_eta]
  rfl

end

/-- A list of words that decodes is an encoding, row by row of the opcode map (R112). -/
theorem isEncodingOf_of_decode {ws rest : List Word} {i : Instr} (h : decode ws = .ok (i, rest)) :
    IsEncodingOf i ws rest := by
  cases ws with
  | nil => exact nomatch h
  | cons w ws =>
    simp only [decode] at h
    split at h
    any_goals exact isEncodingOf_of_decodeZ ‹_› rfl rfl h
    · exact isEncodingOf_of_decodeP ‹_› h
    · exact isEncodingOf_of_decodeD ‹_› h
    · exact isEncodingOf_of_decodeT ‹_› h
    · exact nomatch h

/-! The bytes of a report in their data words (R113). -/

/-- The first word of a DEC is the number `0x40000000 + n`. -/
theorem decWord_eq_add {n : Nat} (h : n ≤ 255) :
    wordOfBytes 0x40 0 0 (BitVec.ofNat 8 n) = 0x40000000#32 + BitVec.ofNat 32 n := by
  have hhead : ((0x40 : Byte) ++ (0 : Byte) ++ (0 : Byte)).toNat = 0x400000 := rfl
  refine BitVec.eq_of_toNat_eq ?_
  rw [wordOfBytes, BitVec.toNat_append, hhead, ← Nat.shiftLeft_add_eq_or_of_lt (BitVec.isLt _), Nat.shiftLeft_eq,
    BitVec.toNat_add, BitVec.toNat_ofNat, BitVec.toNat_ofNat, BitVec.toNat_ofNat]
  omega

/-- Byte position `a` of the data words holds byte `a` of the report, and 0 beyond it. -/
theorem byteOf_packBytes : ∀ (raw : List Byte) (a : Nat), a < 4 * ((raw.length + 3) / 4) →
    ∃ w, (packBytes raw)[a / 4]? = some w ∧ byteOf w (a % 4) = raw.getD a 0
  | [], a, h => absurd h (by simp)
  | [x], a, h => by
    have ha : a < 4 := by simpa using h
    interval_cases a <;> exact ⟨_, rfl, by simp⟩
  | [x, y], a, h => by
    have ha : a < 4 := by simpa using h
    interval_cases a <;> exact ⟨_, rfl, by simp⟩
  | [x, y, z], a, h => by
    have ha : a < 4 := by simpa using h
    interval_cases a <;> exact ⟨_, rfl, by simp⟩
  | x :: y :: z :: u :: raw, a, h => by
    obtain hfirst | hlater := Nat.lt_or_ge a 4
    · interval_cases a <;> exact ⟨_, rfl, by simp⟩
    · obtain ⟨b, rfl⟩ := Nat.exists_eq_add_of_le' hlater
      obtain ⟨w, hw, hbyte⟩ := byteOf_packBytes raw b (by simp only [List.length_cons] at h; omega)
      exact ⟨w, by simpa [packBytes] using hw, by simpa using hbyte⟩

end Sys2Proof.Proofs.Codec

namespace Sys2Proof.Proofs

open Sys2Proof.Machine Codec

/-- Settles O3: the fields of the words built by `encode` are read back; a report goes by induction over its bytes. -/
theorem encodeThenDecodeGivesTheOperation : Obligations.EncodeThenDecodeGivesTheOperation := by
  unfold Obligations.EncodeThenDecodeGivesTheOperation
  exact decode_encode

/-- Settles O4: a word is its fields, and every field is either read or found to be 0. -/
theorem decodedWordsAreTheEncoding : Obligations.DecodedWordsAreTheEncoding := by
  unfold Obligations.DecodedWordsAreTheEncoding
  intro ws rest i h
  exact isEncodingOf_of_decode h

/-- Settles O2: the words of formats P and T are those of `encode`; a DEC counts its bytes in its first word. -/
theorem operandFieldsAreReadAsTheyStand : Obligations.OperandFieldsAreReadAsTheyStand := by
  unfold Obligations.OperandFieldsAreReadAsTheyStand
  refine ⟨decode_proc, decode_tick, fun n ws rest i h => ?_⟩
  obtain ⟨_, raw, hlength, rfl, rfl⟩ := decodeD_eq_ok ((decode_decWord n ws).symm.trans h)
  rw [byteOf_wordOfBytes_0] at hlength
  exact ⟨raw, rfl, hlength, by rw [List.length_append, packBytes_length, hlength]⟩

/-- Settles O6: one data word after the other. -/
theorem reportBytesArePackedLittleEndian : Obligations.ReportBytesArePackedLittleEndian := by
  unfold Obligations.ReportBytesArePackedLittleEndian
  intro raw h
  refine ⟨?_, congrArg some (decWord_eq_add h), fun a ha => ?_⟩
  · rw [encode, List.length_cons, packBytes_length, Nat.add_comm]
  · obtain ⟨w, hw, hbyte⟩ := byteOf_packBytes raw a ha
    exact ⟨w, by rwa [encode, Nat.add_comm, List.getElem?_cons_succ], hbyte⟩

/-- Settles O1: each list of words is the encoding of its operation. -/
theorem tableWordsDecodeToTheirOperations : Obligations.TableWordsDecodeToTheirOperations := by
  unfold Obligations.TableWordsDecodeToTheirOperations
  intro ws
  exact ⟨decode_encode .lf ws rfl, decode_encode .lr ws rfl, decode_encode .cf ws rfl, decode_encode .cr ws rfl,
    decode_encode (.proc 0x52 0x21) ws rfl, decode_encode .en ws rfl, decode_encode .dis ws rfl,
    decode_encode .det ws rfl, decode_encode .wcl ws rfl, decode_encode .rst ws rfl,
    decode_encode (.tick 1000) ws rfl, decode_encode (.dec [0x0A, 0x14, 0x1E, 0x28, 0x32]) ws rfl⟩

end Sys2Proof.Proofs
end

section
/-! Illegal words and traces of words (30_encoding.md R110, R114). -/

namespace Sys2Proof.Proofs.WordTrace

open Sys2Proof.Machine Codec

/-! Which words are illegal (R114). -/

/-- The opcode of `w` is not in the map, or a field its format shows as 0 is not 0 (R112, R114). -/
def IllegalWord (w : Word) : Prop :=
  opcodeOf w ∉ [0x00#8, 0x01#8, 0x02#8, 0x03#8, 0x10#8, 0x20#8, 0x21#8, 0x30#8, 0x31#8, 0x32#8, 0x40#8, 0x50#8] ∨
    (opcodeOf w ∈ [0x00#8, 0x01#8, 0x02#8, 0x03#8, 0x20#8, 0x21#8, 0x30#8, 0x31#8, 0x32#8] ∧ operandOf w ≠ 0) ∨
    (opcodeOf w = 0x10#8 ∧ byteOf w 2 ≠ 0) ∨ (opcodeOf w = 0x40#8 ∧ w.extractLsb' 8 16 ≠ 0)

section

variable {w : Word} {ws : List Word}

theorem decodeZ_eq_illegal {i : Instr} : decodeZ i w ws = .error (.illegalWord w) ↔ operandOf w ≠ 0 := by
  simp [decodeZ]

theorem decodeP_eq_illegal : decodeP w ws = .error (.illegalWord w) ↔ byteOf w 2 ≠ 0 := by
  simp [decodeP]

/-- Data words are refused for other reasons. -/
theorem unpackBytes_ne_illegal (n : Nat) (ws : List Word) : unpackBytes n ws ≠ .error (.illegalWord w) := by
  fun_induction unpackBytes n ws <;> simp_all

/-- The middle field of format D is 0 exactly when its two bytes are. -/
theorem middleField_eq_zero : w.extractLsb' 8 16 = 0#16 ↔ byteOf w 1 = 0 ∧ byteOf w 2 = 0 := by
  simp only [byteOf, ← BitVec.toNat_inj, BitVec.extractLsb'_toNat, Nat.shiftRight_eq_div_pow, BitVec.ofNat_eq_ofNat,
    BitVec.toNat_ofNat]
  omega

theorem decodeD_eq_illegal : decodeD w ws = .error (.illegalWord w) ↔ w.extractLsb' 8 16 ≠ 0#16 := by
  rw [Ne, middleField_eq_zero, decodeD]
  split
  · next spare =>
    have hdata := unpackBytes_ne_illegal (w := w) (byteOf w 0).toNat ws
    split <;> simp_all
  · next illegal => simpa using illegal

/-- Row by row of the opcode map (R112). -/
theorem decode_eq_illegal : decode (w :: ws) = .error (.illegalWord w) ↔ IllegalWord w := by
  unfold IllegalWord
  simp only [decode]
  split
  case h_13 => exact iff_of_true rfl (.inl (by simp; tauto))
  all_goals simp [*, decodeZ_eq_illegal, decodeP_eq_illegal, decodeD_eq_illegal, decodeT]

end

/-! Words laid out one operation after another. -/

theorem exists_encode_eq_cons (i : Instr) : ∃ w ws, encode i = w :: ws := by
  cases i <;> exact ⟨_, _, rfl⟩

theorem length_le_length_words (is : List Instr) : is.length ≤ (is.map encode).flatten.length := by
  induction is with
  | nil => exact Nat.zero_le _
  | cons i is ih =>
    obtain ⟨w, ws, hi⟩ := exists_encode_eq_cons i
    simp only [List.map_cons, List.flatten_cons, hi, List.cons_append, List.length_cons, List.length_append]
    omega

/-- What refuses the words after an operation refuses the words from it on. -/
theorem decodeWords_error {fuel : Nat} {ws rest : List Word} {i : Instr} {e : DecodeError}
    (h : decode ws = .ok (i, rest)) (hrest : decodeWords fuel rest = .error e) :
    decodeWords (fuel + 1) ws = .error e := by
  cases ws with
  | nil => exact nomatch h
  | cons w ws => simp only [decodeWords, h, hrest]

/-- An illegal word after well-formed operations is reached by the fuel, and refuses the whole list (R114). -/
theorem decodeWords_illegal {is : List Instr} {w : Word} {ws : List Word} {fuel : Nat} (hwf : ∀ i ∈ is, i.wf = true)
    (hw : decode (w :: ws) = .error (.illegalWord w)) (hfuel : is.length < fuel) :
    decodeWords fuel ((is.map encode).flatten ++ w :: ws) = .error (.illegalWord w) := by
  induction is generalizing fuel with
  | nil =>
    obtain ⟨fuel, rfl⟩ := Nat.exists_eq_succ_of_ne_zero (Nat.ne_of_gt hfuel)
    rw [List.map_nil, List.flatten_nil, List.nil_append, decodeWords, hw]
  | cons i is ih =>
    obtain ⟨fuel, rfl⟩ := Nat.exists_eq_succ_of_ne_zero (Nat.ne_of_gt (Nat.zero_lt_of_lt hfuel))
    obtain ⟨hi, his⟩ := List.forall_mem_cons.1 hwf
    rw [List.map_cons, List.flatten_cons, List.append_assoc]
    exact decodeWords_error (decode_encode i _ hi) (ih his (Nat.lt_of_succ_lt_succ hfuel))

/-! Steps (notes/assumptions/1.md to 3.md). -/

section

variable {s : State} {i : Instr} {rest : List Word} {e : DecodeError}

theorem step_idle (h : s.trace = []) : step s = .next s := by
  simp only [step, h]

theorem step_of_decode (h : decode s.trace = .ok (i, rest)) : step s = exec i { s with trace := rest } := by
  cases htrace : s.trace with
  | nil => exact nomatch htrace ▸ h
  | cons w ws => simp only [step, htrace, htrace ▸ h]

theorem step_of_refused_words (hne : s.trace ≠ []) (h : decode s.trace = .error e) :
    step s = .refused (.badWord e) := by
  cases htrace : s.trace with
  | nil => exact absurd htrace hne
  | cons w ws => simp only [step, htrace, htrace ▸ h]

end

/-- The machine takes the words of one operation in one step, and carries the others along (`exec_trace`). -/
theorem run_words_eq_runOps (is : List Instr) (rest : List Word) (s : State) (hwf : ∀ i ∈ is, i.wf = true) :
    core.run is.length { s with trace := (is.map encode).flatten ++ rest } = runOps is { s with trace := rest } := by
  induction is generalizing s with
  | nil => rfl
  | cons i is ih =>
    obtain ⟨hi, his⟩ := List.forall_mem_cons.1 hwf
    have hstep : step { s with trace := ((i :: is).map encode).flatten ++ rest } =
        exec i { s with trace := (is.map encode).flatten ++ rest } := by
      refine step_of_decode (s := { s with trace := ((i :: is).map encode).flatten ++ rest }) ?_
      rw [List.map_cons, List.flatten_cons, List.append_assoc]
      exact decode_encode i _ hi
    rw [exec_trace] at hstep
    rw [List.length_cons, runOps_cons, exec_trace]
    obtain ⟨t, ht⟩ | ⟨e, he⟩ := result_cases (exec i s)
    · rw [ht, andThen_next] at hstep ⊢
      exact (core_run_next hstep).trans (ih t his)
    · rw [he, andThen_refused] at hstep ⊢
      exact core_run_refused hstep

end Sys2Proof.Proofs.WordTrace

namespace Sys2Proof.Proofs

open Sys2Proof.Machine WordTrace

/-- Settles O8: the three branches of `step`. -/
theorem stepRunsTheDecodedOperation : Obligations.StepRunsTheDecodedOperation := by
  unfold Obligations.StepRunsTheDecodedOperation
  exact ⟨fun _ _ _ => step_of_decode, fun _ => step_idle, fun _ _ => step_of_refused_words⟩

/-- Settles O5: `decode_eq_illegal`, and that a whole trace is decoded before any of it runs. -/
theorem illegalWordsAreRefused : Obligations.IllegalWordsAreRefused := by
  unfold Obligations.IllegalWordsAreRefused
  refine ⟨fun w ws => decode_eq_illegal.symm, fun s w ws htrace hw => ?_, fun is w ws s hwf hw => ?_⟩
  · exact step_of_refused_words (by simp [htrace]) (htrace ▸ hw)
  · have hfuel : is.length < ((is.map encode).flatten ++ w :: ws).length := by
      have hle := length_le_length_words is
      rw [List.length_append, List.length_cons]
      omega
    rw [runWords, decodeWords_illegal hwf hw hfuel]

/-- Settles O9, by induction on the operations. -/
theorem runningTraceWordsPerformsTheOperations : Obligations.RunningTraceWordsPerformsTheOperations := by
  unfold Obligations.RunningTraceWordsPerformsTheOperations
  exact run_words_eq_runOps

end Sys2Proof.Proofs
end

section
/-! The frames of the operations: what an edge can do, what it leaves alone, and what the operations of the polling
context and of the environment leave alone (42_shift_engine.md R200, R209; 10_state.md). -/

namespace Sys2Proof.Proofs.Frames

open Sys2Proof.Machine Detection

/-! ## The four edges as one operation -/

/-- The line of a handler operation. -/
def lineOf : Instr → InLine
  | .lf => .lat
  | .lr => .lat
  | _ => .clk

/-- The level that the line takes. -/
def levelOf : Instr → Level
  | .lr => true
  | .cr => true
  | _ => false

/-- The protocol action (R201 to R204). -/
def actionOf : Instr → State → State
  | .lf => latchFallAction
  | .lr => latchRiseAction
  | .cr => clockRiseAction
  | _ => clockFallAction

/-- What follows once the line has moved: the delivery, unless the falling Clock edge does not interrupt (R204). -/
def afterEdge (i : Instr) (s : State) : State :=
  bif i == .cf && !s.par.clkFallIrq then s else deliverEdge (lineOf i) (actionOf i) s

theorem exec_handler {i : Instr} (hi : i.agent = .handler) (s : State) :
    exec i s =
      bif (s.pin (lineOf i)).ext == levelOf i then .refused (.noSuchEdge (lineOf i))
      else .next (afterEdge i (s.setExt (lineOf i) (levelOf i))) := by
  cases i with
  | lf | lr | cr => rfl
  | cf =>
    cases hirq : s.par.clkFallIrq <;> cases hext : s.clk.ext <;>
      simp [exec, execCf, edge, afterEdge, lineOf, levelOf, actionOf, hirq, hext]
  | proc _ _ | en | dis | det | wcl | rst | dec _ | tick _ => exact nomatch hi

theorem exec_handler_eq_next {i : Instr} (hi : i.agent = .handler) {s t : State} :
    exec i s = .next t ↔
      (s.pin (lineOf i)).ext = !levelOf i ∧ afterEdge i (s.setExt (lineOf i) (levelOf i)) = t := by
  rw [exec_handler hi]
  cases (s.pin (lineOf i)).ext <;> cases levelOf i <;> simp

/-- Nothing, a count in the window, or the protocol action in CD32 mode outside it (R200). -/
theorem afterEdge_cases (i : Instr) (s : State) :
    afterEdge i s = s ∨
    ((s.pin (lineOf i)).ie = true ∧ s.dw.wa = true ∧ afterEdge i s = countEdge (lineOf i) s) ∨
    ((s.pin (lineOf i)).ie = true ∧ s.dw.wa = false ∧ s.mode = .cd32 ∧ afterEdge i s = actionOf i s) := by
  unfold afterEdge
  cases i == .cf && !s.par.clkFallIrq with
  | true => exact .inl rfl
  | false =>
    obtain ⟨_, e⟩ | ⟨hie, hwa, e⟩ | ⟨_, _, _, e⟩ | ⟨hie, hwa, hmode, e⟩ := deliverEdge_cases (lineOf i) (actionOf i) s
    · exact .inl e
    · exact .inr (.inl ⟨hie, hwa, e⟩)
    · exact .inl e
    · exact .inr (.inr ⟨hie, hwa, hmode, e⟩)

/-- The three next states of a handler operation (R200). -/
theorem exec_handler_cases {i : Instr} {s t : State} (hi : i.agent = .handler) (h : exec i s = .next t) :
    t = s.setExt (lineOf i) (levelOf i) ∨
    ((s.pin (lineOf i)).ie = true ∧ s.dw.wa = true ∧ t = countEdge (lineOf i) (s.setExt (lineOf i) (levelOf i))) ∨
    ((s.pin (lineOf i)).ie = true ∧ s.dw.wa = false ∧ s.mode = .cd32 ∧
      t = actionOf i (s.setExt (lineOf i) (levelOf i))) := by
  obtain ⟨_, rfl⟩ := (exec_handler_eq_next hi).1 h
  simpa using afterEdge_cases i (s.setExt (lineOf i) (levelOf i))

/-! ## What a handler operation leaves alone -/

/-- `t` is `s` but for the shift state, the latches, the counters and the host's levels. -/
structure SamePolling (s t : State) : Prop where
  gs : t.gs = s.gs
  bw : t.bw = s.bw
  mode : t.mode = s.mode
  dir : t.dir = s.dir
  ms : t.ms = s.ms
  par : t.par = s.par
  cfg : t.cfg = s.cfg
  connections : t.connections = s.connections
  failure : t.failure = s.failure
  trace : t.trace = s.trace
  dw : t.dw = { s.dw with pl := t.dw.pl, pc := t.dw.pc }
  lat : t.lat = { s.lat with olat := t.lat.olat, ext := t.lat.ext }
  clk : t.clk = { s.clk with olat := t.clk.olat, ext := t.clk.ext }

section

variable {s t : State}

theorem SamePolling.wa (h : SamePolling s t) : t.dw.wa = s.dw.wa := by rw [h.dw]

theorem SamePolling.dd (h : SamePolling s t) : t.dw.dd = s.dw.dd := by rw [h.dw]

theorem SamePolling.ws (h : SamePolling s t) : t.dw.ws = s.dw.ws := by rw [h.dw]

theorem SamePolling.lat_role (h : SamePolling s t) : t.lat.role = s.lat.role := by rw [h.lat]

theorem SamePolling.lat_ie (h : SamePolling s t) : t.lat.ie = s.lat.ie := by rw [h.lat]

theorem SamePolling.clk_role (h : SamePolling s t) : t.clk.role = s.clk.role := by rw [h.clk]

theorem SamePolling.clk_ie (h : SamePolling s t) : t.clk.ie = s.clk.ie := by rw [h.clk]

theorem samePolling_setExt (s : State) (l : InLine) (v : Level) : SamePolling s (s.setExt l v) := by
  constructor <;> cases l <;> rfl

theorem samePolling_countEdge (s : State) (l : InLine) : SamePolling s (countEdge l s) := by
  constructor <;> cases l <;> rfl

theorem samePolling_latchFallAction (s : State) : SamePolling s (latchFallAction s) := by
  constructor <;> rfl

theorem samePolling_latchRiseAction (s : State) : SamePolling s (latchRiseAction s) := by
  constructor <;> rfl

theorem samePolling_clockRiseAction (s : State) : SamePolling s (clockRiseAction s) := by
  unfold clockRiseAction
  split <;> constructor <;> rfl

theorem samePolling_actionOf (i : Instr) (s : State) : SamePolling s (actionOf i s) := by
  cases i with
  | lf => exact samePolling_latchFallAction s
  | lr => exact samePolling_latchRiseAction s
  | cr => exact samePolling_clockRiseAction s
  | cf | proc _ _ | en | dis | det | wcl | rst | dec _ | tick _ => constructor <;> rfl

theorem SamePolling.trans {u : State} (h : SamePolling s t) (h' : SamePolling t u) : SamePolling s u where
  gs := h'.gs.trans h.gs
  bw := h'.bw.trans h.bw
  mode := h'.mode.trans h.mode
  dir := h'.dir.trans h.dir
  ms := h'.ms.trans h.ms
  par := h'.par.trans h.par
  cfg := h'.cfg.trans h.cfg
  connections := h'.connections.trans h.connections
  failure := h'.failure.trans h.failure
  trace := h'.trace.trans h.trace
  dw := h'.dw.trans (by rw [h.dw])
  lat := h'.lat.trans (by rw [h.lat])
  clk := h'.clk.trans (by rw [h.clk])

variable {i : Instr} (hi : i.agent = .handler) (h : exec i s = .next t)

include hi h

/-- A handler operation leaves the polling context's part of the state alone (R209). -/
theorem exec_handler_samePolling : SamePolling s t := by
  have hmoved := samePolling_setExt s (lineOf i) (levelOf i)
  obtain rfl | ⟨_, _, rfl⟩ | ⟨_, _, _, rfl⟩ := exec_handler_cases hi h
  · exact hmoved
  · exact hmoved.trans (samePolling_countEdge _ _)
  · exact hmoved.trans (samePolling_actionOf i _)

/-- It counts in the window alone (R200). -/
theorem exec_handler_dw (hwa : s.dw.wa = false) : t.dw = s.dw := by
  obtain rfl | ⟨_, hopen, _⟩ | ⟨_, _, _, rfl⟩ := exec_handler_cases hi h
  · exact setExt_dw ..
  · exact absurd hopen (by simp [hwa])
  · cases i with
    | cr => exact (clockRiseAction_dw _).trans (setExt_dw ..)
    | lf | lr | cf | proc _ _ | en | dis | det | wcl | rst | dec _ | tick _ => rfl

/-- And does not shift there. -/
theorem exec_handler_shift (hwa : s.dw.wa = true) : t.sh = s.sh ∧ t.dat = s.dat := by
  obtain rfl | ⟨_, _, rfl⟩ | ⟨_, hclosed, _⟩ := exec_handler_cases hi h
  · exact ⟨setExt_sh .., setExt_dat ..⟩
  · exact ⟨(countEdge_sh ..).trans (setExt_sh ..), (countEdge_dat ..).trans (setExt_dat ..)⟩
  · exact absurd hclosed (by simp [hwa])

/-- Only LR writes the latches of LAT and CLK (R202). -/
theorem exec_handler_olat (hlr : i ≠ .lr) : t.lat.olat = s.lat.olat ∧ t.clk.olat = s.clk.olat := by
  have hmoved : (s.setExt (lineOf i) (levelOf i)).lat.olat = s.lat.olat ∧
      (s.setExt (lineOf i) (levelOf i)).clk.olat = s.clk.olat := by
    cases lineOf i <;> exact ⟨rfl, rfl⟩
  obtain rfl | ⟨_, _, rfl⟩ | ⟨_, _, _, rfl⟩ := exec_handler_cases hi h
  · exact hmoved
  · rwa [countEdge_lat, countEdge_clk]
  · cases i with
    | cr => simpa [actionOf] using hmoved
    | lr => exact absurd rfl hlr
    | lf | cf | proc _ _ | en | dis | det | wcl | rst | dec _ | tick _ => exact hmoved

omit hi in
/-- CF has no protocol action (R204). -/
theorem exec_cf_shift (hcf : i = .cf) : t.dat = s.dat ∧ t.sh = s.sh := by
  subst hcf
  obtain rfl | ⟨_, _, rfl⟩ | ⟨_, _, _, rfl⟩ := exec_handler_cases rfl h <;> exact ⟨rfl, rfl⟩

end

/-! ## What the other operations leave alone -/

/-- What the operation `i` of the polling context or the environment leaves alone, each field but for the operations
that write it. -/
structure SameHandler (i : Instr) (s t : State) : Prop where
  sh : t.sh = s.sh
  par : t.par = s.par
  trace : t.trace = s.trace
  lat_ext : t.lat.ext = s.lat.ext
  clk_ext : t.clk.ext = s.clk.ext
  cfg : i ≠ .rst → t.cfg = s.cfg
  connections : i ≠ .rst → t.connections = s.connections
  bw : (∀ dp ex, i ≠ .proc dp ex) → t.bw = s.bw
  failure : (∀ raw, i ≠ .dec raw) → t.failure = s.failure

@[simp] theorem disableCd32_lat_ext (s : State) : (disableCd32 s).lat.ext = s.lat.ext := by
  unfold disableCd32
  split <;> rfl

@[simp] theorem disableCd32_clk_ext (s : State) : (disableCd32 s).clk.ext = s.clk.ext := by
  unfold disableCd32
  split <;> rfl

@[simp] theorem decideMode_dw (s : State) : (decideMode s).dw = s.dw := by
  unfold decideMode
  cases sawCd32 s.dw.pl s.dw.pc <;> simp

section

variable {i : Instr} {s t : State}

theorem exec_sameHandler (hi : i.agent ≠ .handler) (h : exec i s = .next t) : SameHandler i s t := by
  cases i with
  | lf | lr | cf | cr => exact absurd rfl hi
  | proc dp ex =>
    obtain ⟨_, rfl⟩ := exec_proc_eq_next.1 h
    constructor <;> simp
  | en =>
    obtain ⟨_, rfl⟩ := exec_en_eq_next.1 h
    constructor <;> simp
  | dis =>
    obtain ⟨_, rfl⟩ := exec_dis_eq_next.1 h
    constructor <;> simp
  | det =>
    obtain ⟨_, rfl⟩ := exec_det_eq_next.1 h
    cases s.dw.dd || !settled s.ms s.dw.lc <;> constructor <;> simp
  | wcl =>
    obtain ⟨_, _, rfl⟩ := exec_wcl_eq_next.1 h
    unfold decideMode
    cases sawCd32 s.closeWindow.dw.pl s.closeWindow.dw.pc <;> constructor <;> simp
  | rst =>
    obtain ⟨_, rfl⟩ := exec_rst_eq_next.1 h
    constructor <;> simp
  | dec raw =>
    obtain ⟨_, _, rfl⟩ := exec_dec_eq_next.1 h
    split
    · constructor <;> simp
    · split <;> constructor <;> simp
  | tick k =>
    obtain ⟨_, rfl⟩ := exec_tick_eq_next.1 h
    constructor <;> simp

/-- `t` has the mode, the window and the configuration of LAT and CLK that `s` has. -/
structure SameLines (s t : State) : Prop where
  mode : t.mode = s.mode
  wa : t.dw.wa = s.dw.wa
  dd : t.dw.dd = s.dw.dd
  ws : t.dw.ws = s.dw.ws
  lat_role : t.lat.role = s.lat.role
  lat_ie : t.lat.ie = s.lat.ie
  clk_role : t.clk.role = s.clk.role
  clk_ie : t.clk.ie = s.clk.ie

theorem SamePolling.sameLines (h : SamePolling s t) : SameLines s t :=
  ⟨h.mode, h.wa, h.dd, h.ws, h.lat_role, h.lat_ie, h.clk_role, h.clk_ie⟩

/-- The five operations that configure the lines or the window. -/
def Configures (i : Instr) : Prop := i = .en ∨ i = .dis ∨ i = .det ∨ i = .wcl ∨ i = .rst

theorem exec_sameLines (hi : ¬ Configures i) (h : exec i s = .next t) : SameLines s t := by
  cases i with
  | lf | lr | cf | cr => exact (exec_handler_samePolling rfl h).sameLines
  | proc dp ex =>
    obtain ⟨_, rfl⟩ := exec_proc_eq_next.1 h
    constructor <;> simp
  | dec raw =>
    obtain ⟨_, _, rfl⟩ := exec_dec_eq_next.1 h
    split
    · constructor <;> rfl
    · split <;> constructor <;> rfl
  | tick k =>
    obtain ⟨_, rfl⟩ := exec_tick_eq_next.1 h
    constructor <;> rfl
  | en | dis | det | wcl | rst => exact absurd (by simp [Configures]) hi

/-! ## The operation that opens a window -/

/-- A DET that is due (43_autodetector.md R231). -/
def OpensWindow (i : Instr) (s : State) : Prop := i = .det ∧ s.dw.dd = false ∧ 500 ≤ elapsed s.ms s.dw.lc

theorem exec_det_of_not_opensWindow (hwa : s.dw.wa = false) (hnot : ¬ OpensWindow .det s) : exec .det s = .next s := by
  refine exec_det_of_notDue hwa ?_
  by_contra! hdue
  exact hnot ⟨rfl, Bool.eq_false_iff.2 hdue.1, hdue.2⟩

theorem exec_of_opensWindow (hwa : s.dw.wa = false) (hopens : OpensWindow i s) :
    exec i s = .next (listenLines s.openWindow).stampWait := by
  obtain ⟨rfl, hdd, helapsed⟩ := hopens
  exact exec_det_of_due hwa hdd helapsed

/-- Any other operation leaves the window closed. -/
theorem exec_wa_false (hwa : s.dw.wa = false) (hnot : ¬ OpensWindow i s) (h : exec i s = .next t) :
    t.dw.wa = false := by
  by_cases hi : Configures i
  · obtain rfl | rfl | rfl | rfl | rfl := hi
    · obtain ⟨_, rfl⟩ := exec_en_eq_next.1 h
      rwa [enableCd32_dw]
    · obtain ⟨_, rfl⟩ := exec_dis_eq_next.1 h
      rwa [disableCd32_dw]
    · rw [exec_det_of_not_opensWindow hwa hnot, next_inj] at h
      rwa [← h]
    · rw [exec_wcl_notOpen hwa] at h
      exact nomatch h
    · obtain ⟨_, rfl⟩ := exec_rst_eq_next.1 h
      rw [nextConnection_dw, disableCd32_dw, clearDetection_dw_written]
  · rw [(exec_sameLines hi h).wa, hwa]

/-! ## Frames of all twelve operations -/

theorem exec_par (h : exec i s = .next t) : t.par = s.par := by
  by_cases hi : i.agent = .handler
  · exact (exec_handler_samePolling hi h).par
  · exact (exec_sameHandler hi h).par

theorem exec_keeps_trace (h : exec i s = .next t) : t.trace = s.trace := by
  by_cases hi : i.agent = .handler
  · exact (exec_handler_samePolling hi h).trace
  · exact (exec_sameHandler hi h).trace

theorem exec_layout (h : exec i s = .next t) (hrst : i ≠ .rst) : t.cfg = s.cfg ∧ t.connections = s.connections := by
  by_cases hi : i.agent = .handler
  · exact ⟨(exec_handler_samePolling hi h).cfg, (exec_handler_samePolling hi h).connections⟩
  · exact ⟨(exec_sameHandler hi h).cfg hrst, (exec_sameHandler hi h).connections hrst⟩

theorem exec_failure (h : exec i s = .next t) (hdec : ∀ raw, i ≠ .dec raw) : t.failure = s.failure := by
  by_cases hi : i.agent = .handler
  · exact (exec_handler_samePolling hi h).failure
  · exact (exec_sameHandler hi h).failure hdec

theorem exec_bw (h : exec i s = .next t) (hproc : ∀ dp ex, i ≠ .proc dp ex) : t.bw = s.bw := by
  by_cases hi : i.agent = .handler
  · exact (exec_handler_samePolling hi h).bw
  · exact (exec_sameHandler hi h).bw hproc

/-- Only PROC writes the button word (10_state.md R34). -/
theorem exec_buttonWord (h : exec i s = .next t) :
    t.bw = s.bw ∨ (∃ dp ex, i = .proc dp ex) ∧ ButtonWordForm t.bw := by
  by_cases hproc : ∃ dp ex, i = .proc dp ex
  · obtain ⟨dp, ex, rfl⟩ := hproc
    obtain ⟨_, rfl⟩ := exec_proc_eq_next.1 h
    refine .inr ⟨⟨dp, ex, rfl⟩, ?_⟩
    rw [procButtons_bw, procWord_bw_written]
    exact remap_buttonWordForm dp ex
  · exact .inl (exec_bw h fun dp ex hi => hproc ⟨dp, ex, hi⟩)

end

end Sys2Proof.Proofs.Frames

namespace Sys2Proof.Proofs

open Sys2Proof.Machine Frames

/-- Settles O19: an edge moves its line, and then does nothing, counts or takes its protocol action. -/
theorem handlerLeavesPollingStateAlone : Obligations.HandlerLeavesPollingStateAlone := by
  unfold Obligations.HandlerLeavesPollingStateAlone
  intro i s t hi h
  have hsame := exec_handler_samePolling hi h
  exact ⟨hsame.gs, hsame.bw, hsame.mode, hsame.dir, hsame.ms, hsame.failure, hsame.dw, exec_handler_dw hi h,
    exec_handler_shift hi h, hsame.lat, hsame.clk, exec_handler_olat hi h, exec_cf_shift h⟩

/-- Settles O11: the frames of the two kinds of operation, put together. -/
theorem configurationOfTheRunIsKept : Obligations.ConfigurationOfTheRunIsKept := by
  unfold Obligations.ConfigurationOfTheRunIsKept
  intro i s t h
  exact ⟨exec_par h, exec_keeps_trace h, exec_layout h⟩

end Sys2Proof.Proofs
end

section
/-! Noninterference: what an operation neither reads nor writes it carries along (10_state.md R34, R35, R52;
20_memory.md R82; 70_reset_and_hazards.md R302). -/

namespace Sys2Proof.Proofs.Noninterference

open Sys2Proof.Machine Frames EdgeOutcome Detection

/-! ## Updates that the delivery of an edge does not see -/

/-- The delivery of an edge neither reads nor writes what `u` changes; the protocol actions may. -/
structure Unseen (u : State → State) : Prop where
  ext : ∀ s l, ((u s).pin l).ext = (s.pin l).ext
  ie : ∀ s l, ((u s).pin l).ie = (s.pin l).ie
  wa : ∀ s, (u s).dw.wa = s.dw.wa
  mode : ∀ s, (u s).mode = s.mode
  par : ∀ s, (u s).par = s.par
  setExt : ∀ s l v, (u s).setExt l v = u (s.setExt l v)
  countEdge : ∀ s l, countEdge l (u s) = u (countEdge l s)

section

variable {u : State → State} {i : Instr} (hu : Unseen u)
  (hact : ∀ s, s.mode = .cd32 → actionOf i (u s) = u (actionOf i s))

include hu hact

theorem afterEdge_of_unseen (s : State) : afterEdge i (u s) = u (afterEdge i s) := by
  have hdeliver : deliverEdge (lineOf i) (actionOf i) (u s) = u (deliverEdge (lineOf i) (actionOf i) s) := by
    unfold deliverEdge handlerBody acknowledge
    rw [hu.ie, hu.wa, hu.mode]
    cases (s.pin (lineOf i)).ie with
    | false => rfl
    | true =>
      cases s.dw.wa with
      | true => exact hu.countEdge s (lineOf i)
      | false =>
        cases hmode : s.mode with
        | normal => rfl
        | cd32 => exact hact s hmode
  unfold afterEdge
  rw [hu.par]
  cases i == .cf && !s.par.clkFallIrq with
  | true => rfl
  | false => exact hdeliver

/-- A handler operation whose protocol action does not see `u` either commutes with it. -/
theorem exec_handler_of_unseen (hi : i.agent = .handler) (s : State) :
    exec i (u s) = andThen (exec i s) fun t => .next (u t) := by
  rw [exec_handler hi, exec_handler hi, hu.ext]
  cases (s.pin (lineOf i)).ext == levelOf i with
  | true => rfl
  | false => rw [cond_false, cond_false, hu.setExt, afterEdge_of_unseen hu hact, andThen_next]

end

/-! ## The button word, the shift state and the wait stamp -/

/-- Changes the three registers by `f`, `g` and `h`. -/
def mapHidden (f : BitVec 16 → BitVec 16) (g : ShiftState → ShiftState) (h : Word → Word) (s : State) : State :=
  { s with bw := f s.bw, sh := g s.sh, dw := { s.dw with ws := h s.dw.ws } }

section

variable (f : BitVec 16 → BitVec 16) (g : ShiftState → ShiftState) (h : Word → Word) (s : State)

theorem unseen_mapHidden : Unseen (mapHidden f g h) := by
  refine ⟨fun s l => ?_, fun s l => ?_, fun _ => rfl, fun _ => rfl, fun _ => rfl, fun s l v => ?_, fun s l => ?_⟩ <;>
    cases l <;> rfl

theorem clockRiseAction_mapHidden :
    clockRiseAction (mapHidden f id h s) = mapHidden f id h (clockRiseAction s) := by
  obtain hlt | hge := Nat.lt_or_ge s.sh.idx.toNat 9
  · rw [clockRiseAction_of_lt hlt, clockRiseAction_of_lt (s := mapHidden f id h s) hlt]
    rfl
  · rw [clockRiseAction_of_ge hge, clockRiseAction_of_ge (s := mapHidden f id h s) hge]

theorem lineWrite_mapHidden (l : Line) (v : Level) :
    (mapHidden f g h s).lineWrite l v = mapHidden f g h (s.lineWrite l v) := by
  cases l <;> rfl

theorem procButtons_mapHidden (dp : Byte) :
    procButtons dp (mapHidden f g h s) = mapHidden f g h (procButtons dp s) := by
  cases hmode : s.mode with
  | cd32 => rw [procButtons_cd32 dp hmode, procButtons_cd32 dp (s := mapHidden f g h s) hmode]
  | normal =>
    have hmode' : (mapHidden f g h s).mode = .normal := hmode
    simp only [procButtons, hmode, hmode', lineWrite_mapHidden]
    rfl

theorem disableCd32_mapHidden : disableCd32 (mapHidden f g h s) = mapHidden f g h (disableCd32 s) := by
  obtain ⟨hmode, hlat, hclk, e⟩ | ⟨hnot, e⟩ := disableCd32_cases s
  · rw [e]
    exact ModeSwitch.disableCd32_of_inPlace hmode hlat hclk
  · rw [e]
    exact if_neg hnot

theorem decideMode_mapHidden : decideMode (mapHidden f g h s) = mapHidden f g h (decideMode s) := by
  show (bif sawCd32 s.dw.pl s.dw.pc then _ else disableCd32 (mapHidden f g h s)) = _
  rw [disableCd32_mapHidden, decideMode]
  cases sawCd32 s.dw.pl s.dw.pc <;> rfl

theorem nextConnection_mapHidden : nextConnection (mapHidden f g h s) = mapHidden f g h (nextConnection s) := by
  obtain ⟨⟩ := s
  next connections _ _ => cases connections <;> rfl

theorem decodeInto_mapHidden (raw : List Byte) :
    decodeInto raw (mapHidden f g h s) = andThen (decodeInto raw s) fun t => .next (mapHidden f g h t) := by
  unfold decodeInto
  split
  · rfl
  · show (if raw.length < s.cfg.reportLength then _ else _) = _
    split <;> rfl

variable {f g h s}

/-- A guarded operation carries along what its body carries along. -/
theorem whenPollingFree_mapHidden {k : State → Result}
    (hk : s.dw.wa = false → k (mapHidden f g h s) = andThen (k s) fun t => .next (mapHidden f g h t)) :
    whenPollingFree k (mapHidden f g h s) = andThen (whenPollingFree k s) fun t => .next (mapHidden f g h t) := by
  cases hwa : s.dw.wa with
  | true => rw [whenPollingFree_busy hwa, whenPollingFree_busy (s := mapHidden f g h s) hwa, andThen_refused]
  | false => rw [whenPollingFree_free hwa, whenPollingFree_free (s := mapHidden f g h s) hwa, hk hwa]

/-- LF reads the button word and writes the shift state, the other edges may read the shift state; none reads the wait
stamp. -/
theorem exec_handler_mapHidden {i : Instr} (hi : i.agent = .handler) (hlf : i = .lf → f = id) :
    exec i (mapHidden f id h s) = andThen (exec i s) fun t => .next (mapHidden f id h t) := by
  refine exec_handler_of_unseen (unseen_mapHidden f id h) (fun s _ => ?_) hi s
  cases i with
  | lf =>
    obtain rfl := hlf rfl
    rfl
  | cr => exact clockRiseAction_mapHidden f h s
  | lr | cf | proc _ _ | en | dis | det | wcl | rst | dec _ | tick _ => rfl

/-- No other operation reads or writes the shift state; only PROC writes the button word; the wait stamp matters in the
window, and to the DET that opens one. -/
theorem exec_polling_mapHidden {i : Instr} (hi : i.agent ≠ .handler) (hproc : (∃ dp ex, i = .proc dp ex) → f = id)
    (hws : h = id ∨ s.dw.wa = false ∧ ¬ OpensWindow i s) :
    exec i (mapHidden f g h s) = andThen (exec i s) fun t => .next (mapHidden f g h t) := by
  cases i with
  | lf | lr | cf | cr => exact absurd rfl hi
  | proc dp ex =>
    obtain rfl := hproc ⟨dp, ex, rfl⟩
    unfold exec execProc
    refine whenPollingFree_mapHidden fun _ => ?_
    exact congrArg Host.Outcome.next (procButtons_mapHidden id g h (procWord dp ex (procDirections dp s)) dp)
  | en =>
    unfold exec execEn
    exact whenPollingFree_mapHidden fun _ => rfl
  | dis =>
    unfold exec execDis
    exact whenPollingFree_mapHidden fun _ => congrArg Host.Outcome.next (disableCd32_mapHidden f g h s)
  | det =>
    obtain rfl | ⟨hwa, hnot⟩ := hws
    · unfold exec execDet
      refine whenPollingFree_mapHidden fun _ => ?_
      show (bif s.dw.dd || !settled s.ms s.dw.lc then _ else _) = _
      cases s.dw.dd || !settled s.ms s.dw.lc <;> rfl
    · rw [exec_det_of_not_opensWindow hwa hnot, exec_det_of_not_opensWindow (s := mapHidden f g h s) hwa hnot,
        andThen_next]
  | wcl =>
    cases hwa : s.dw.wa with
    | false => rw [exec_wcl_notOpen hwa, exec_wcl_notOpen (s := mapHidden f g h s) hwa, andThen_refused]
    | true =>
      obtain rfl : h = id := hws.resolve_right (by simp [hwa])
      obtain hearly | hover := Nat.lt_or_ge (elapsed s.ms s.dw.ws) 100
      · rw [exec_wcl_early hwa hearly, exec_wcl_early (s := mapHidden f g id s) hwa hearly, andThen_refused]
      · rw [exec_wcl_over hwa hover, exec_wcl_over (s := mapHidden f g id s) hwa hover, andThen_next,
          ← decideMode_mapHidden]
        rfl
  | rst =>
    unfold exec execRst
    refine whenPollingFree_mapHidden fun _ => ?_
    rw [andThen_next, ← nextConnection_mapHidden, ← disableCd32_mapHidden]
    rfl
  | dec raw =>
    unfold exec execDec
    refine whenPollingFree_mapHidden fun _ => ?_
    show (bif admitted s.cfg then _ else _) = _
    cases admitted s.cfg with
    | false => rfl
    | true => exact decodeInto_mapHidden f g h s raw
  | tick k =>
    obtain rfl | ⟨hwa, _⟩ := hws
    · show (bif mayTick k s.dw.wa s.ms s.dw.ws then _ else _) = andThen (bif _ then _ else _) _
      cases mayTick k s.dw.wa s.ms s.dw.ws <;> rfl
    · exact (Ticks.execTick_of_closed k (s := mapHidden f g h s) hwa).trans
        (by rw [exec, Ticks.execTick_of_closed k hwa]; rfl)

end

/-! ## Two runs that differ in the wait stamp (R302) -/

/-- `r'` is the result `r` but for the stamp, which `h` changed: either `r` forgot it, or no window has opened. -/
def SameButStamp (h : Word → Word) (r r' : Result) : Prop :=
  r' = r ∨ (r' = andThen r fun t => .next (mapHidden id id h t)) ∧ ∀ t, r = .next t → t.dw.wa = false

/-- Outside the window an operation writes the stamp, or carries it along and opens no window. -/
theorem exec_sameButStamp (i : Instr) {s : State} (hwa : s.dw.wa = false) (h : Word → Word) :
    SameButStamp h (exec i s) (exec i (mapHidden id id h s)) := by
  by_cases hopens : OpensWindow i s
  · left
    rw [exec_of_opensWindow hwa hopens, exec_of_opensWindow (s := mapHidden id id h s) hwa hopens]
    rfl
  · refine .inr ⟨?_, fun t => exec_wa_false hwa hopens⟩
    by_cases hi : i.agent = .handler
    · exact exec_handler_mapHidden hi fun _ => rfl
    · exact exec_polling_mapHidden hi (fun _ => rfl) (.inr ⟨hwa, hopens⟩)

theorem runOps_sameButStamp (ops : List Instr) {s : State} (hwa : s.dw.wa = false) (h : Word → Word) :
    SameButStamp h (runOps ops s) (runOps ops (mapHidden id id h s)) := by
  induction ops generalizing s with
  | nil => exact .inr ⟨rfl, fun t ht => next_inj.1 ht ▸ hwa⟩
  | cons i ops ih =>
    rw [runOps_cons, runOps_cons]
    obtain hforgot | ⟨hcarried, hclosed⟩ := exec_sameButStamp i hwa h
    · exact .inl (by rw [hforgot])
    · obtain ⟨t, ht⟩ | ⟨e, he⟩ := result_cases (exec i s)
      · rw [hcarried, ht]
        exact ih (hclosed t ht)
      · exact .inl (by rw [hcarried, he, andThen_refused])

/-! ## A handler operation between the groups of a PROC (20_memory.md R82) -/

theorem unseen_procDirections (dp : Byte) : Unseen (procDirections dp) := by
  refine ⟨fun s l => ?_, fun s l => ?_, fun _ => rfl, fun _ => rfl, fun _ => rfl, fun s l v => ?_, fun s l => ?_⟩ <;>
    cases l <;> rfl

theorem actionOf_procDirections (i : Instr) (dp : Byte) (s : State) :
    actionOf i (procDirections dp s) = procDirections dp (actionOf i s) := by
  cases i with
  | cr =>
    obtain hlt | hge := Nat.lt_or_ge s.sh.idx.toNat 9
    · simp only [actionOf, clockRiseAction_of_lt hlt, clockRiseAction_of_lt (s := procDirections dp s) hlt]
      rfl
    · simp only [actionOf, clockRiseAction_of_ge hge, clockRiseAction_of_ge (s := procDirections dp s) hge]
  | lf | lr | cf | proc _ _ | en | dis | det | wcl | rst | dec _ | tick _ => rfl

section

variable (s : State)

theorem setExt_lineWrite (l : Line) (m : InLine) (v x : Level) :
    (s.lineWrite l x).setExt m v = (s.setExt m v).lineWrite l x := by
  cases l <;> cases m <;> rfl

theorem countEdge_lineWrite (l : Line) (m : InLine) (x : Level) :
    countEdge m (s.lineWrite l x) = (countEdge m s).lineWrite l x := by
  cases l <;> cases m <;> rfl

end

/-- In CD32 mode there is nothing to see, and in Normal mode the latches are not what an edge looks at. -/
theorem unseen_procButtons (dp : Byte) : Unseen (procButtons dp) where
  ext s l := by cases l <;> simp
  ie s l := by cases l <;> simp
  wa := by simp
  mode := by simp
  par := by simp
  setExt s l v := by
    cases hmode : s.mode <;> simp [procButtons, hmode, setExt_lineWrite]
  countEdge s l := by
    cases hmode : s.mode <;> simp [procButtons, hmode, countEdge_lineWrite]

theorem actionOf_procButtons (i : Instr) (dp : Byte) (s : State) (hmode : s.mode = .cd32) :
    actionOf i (procButtons dp s) = procButtons dp (actionOf i s) := by
  have hmode' : (actionOf i s).mode = .cd32 := (samePolling_actionOf i s).mode.trans hmode
  rw [procButtons_cd32 dp hmode, procButtons_cd32 dp hmode']

end Sys2Proof.Proofs.Noninterference

namespace Sys2Proof.Proofs

open Sys2Proof.Machine Frames EdgeOutcome Noninterference

/-- Settles O17: PROC overwrites the button word whatever it is, and the operations that neither read nor write it carry
it along. -/
theorem buttonWordHasOneWriterAndOneReader : Obligations.ButtonWordHasOneWriterAndOneReader := by
  unfold Obligations.ButtonWordHasOneWriterAndOneReader
  refine ⟨fun i s t => exec_buttonWord, fun i s w hlf hproc => ?_, fun dp ex s w => rfl⟩
  by_cases hi : i.agent = .handler
  · exact exec_handler_mapHidden (f := fun _ => w) (h := id) hi fun h => absurd h hlf
  · exact exec_polling_mapHidden (f := fun _ => w) (g := id) (h := id) hi
      (fun ⟨dp, ex, h⟩ => absurd h (hproc dp ex)) (.inl rfl)

/-- Settles O18: outside the handler no operation reads the shift state, and its frame holds the shift state. -/
theorem shiftStateIsPrivateToTheHandler : Obligations.ShiftStateIsPrivateToTheHandler := by
  unfold Obligations.ShiftStateIsPrivateToTheHandler
  intro i s x hi
  exact ⟨exec_polling_mapHidden (f := id) (g := fun _ => x) (h := id) hi (fun _ => rfl) (.inl rfl),
    fun t h => (exec_sameHandler hi h).sh⟩

/-- Settles O31: the two runs agree but for the stamp until the first window opens, and from there on altogether. -/
theorem waitStampIsWrittenBeforeItIsRead : Obligations.WaitStampIsWrittenBeforeItIsRead := by
  unfold Obligations.WaitStampIsWrittenBeforeItIsRead
  intro ops s x hwa
  have hruns : SameButStamp (fun _ => x) (runOps ops s) (runOps ops { s with dw := { s.dw with ws := x } }) :=
    runOps_sameButStamp ops hwa fun _ => x
  obtain hforgot | ⟨hcarried, hclosed⟩ := hruns
  · exact ⟨fun t ht => .inl (hforgot.trans ht), fun e he => hforgot.trans he⟩
  · refine ⟨fun t ht => .inr ⟨hclosed t ht, ?_⟩, fun e he => ?_⟩
    · rw [hcarried, ht]
      rfl
    · rw [hcarried, he, andThen_refused]

/-- Settles O32: an acting LF writes the whole shift state and reads none of it. -/
theorem latchFallForgetsTheOldShiftState : Obligations.LatchFallForgetsTheOldShiftState := by
  unfold Obligations.LatchFallForgetsTheOldShiftState
  intro s x ops hext hie hwa hmode
  have hacts : exec .lf s = .next (latchFallAction (s.setExt .lat false)) :=
    edge_cd32 .lat false latchFallAction hext hie hwa hmode
  have hacts' : exec .lf { s with sh := x } = .next (latchFallAction (s.setExt .lat false)) :=
    edge_cd32 .lat false latchFallAction (s := { s with sh := x }) hext hie hwa hmode
  rw [runOps_cons, runOps_cons, hacts, hacts']

/-- Settles O35: a handler operation commutes with group 1 and with group 3 of PROC, and keeps PROC enabled. -/
theorem procIsAtomicForTheRegisters : Obligations.ProcIsAtomicForTheRegisters := by
  unfold Obligations.ProcIsAtomicForTheRegisters
  intro i dp ex s hi hwa
  have hgroup₁ := exec_handler_of_unseen (unseen_procDirections dp) (fun s _ => actionOf_procDirections i dp s) hi s
  have hgroup₃ := exec_handler_of_unseen (unseen_procButtons dp) (fun s => actionOf_procButtons i dp s) hi
    (procWord dp ex (procDirections dp s))
  constructor
  · obtain ⟨t, ht⟩ | ⟨e, he⟩ := result_cases (exec i s)
    · have hwa' : t.dw.wa = false := (exec_handler_samePolling hi ht).wa.trans hwa
      rw [hgroup₁, ht]
      exact (exec_proc_eq_next.2 ⟨hwa', rfl⟩).symm
    · rw [hgroup₁, he]
      rfl
  · rw [exec_proc_eq_next.2 ⟨hwa, rfl⟩, andThen_next, hgroup₃]

end Sys2Proof.Proofs
end

section
/-! When an operation completes (30_encoding.md R118), and the invariant of the block (10_state.md R34, R35, R40, R50;
41_mode_controller.md R176). -/

namespace Sys2Proof.Proofs.Enabling

open Sys2Proof.Machine

variable {i : Instr} {s : State}

/-- While the window is open, the ticks that may be taken are those that all begin before 100 ms (R234). -/
theorem mayTick_iff_each_early (k : Nat) (now ws : Word) :
    mayTick k true now ws = true ↔ ∀ j < k, elapsed (now + BitVec.ofNat 32 j) ws < 100 := by
  simp only [Ticks.mayTick_of_open, elapsed_add]
  have hlt := elapsed_lt now ws
  constructor
  · intro hk j hj
    omega
  · intro hearly
    by_contra! hlate
    obtain ⟨hk, hlate⟩ := hlate
    have hfirst := hearly 0 (Nat.pos_of_ne_zero hk)
    have hlast := hearly (100 - elapsed now ws) (by omega)
    omega

/-- Each case reads the condition off the operation's inversion lemma. -/
theorem exec_completes_iff_enabled : (∃ t, exec i s = .next t) ↔ enabled i s := by
  cases i with
  | lf => simp [exec_lf_eq_next, enabled]
  | lr => simp [exec_lr_eq_next, enabled]
  | cf => simp [exec_cf_eq_next, enabled]
  | cr => simp [exec_cr_eq_next, enabled]
  | proc dp ex => simp [exec_proc_eq_next, enabled]
  | en => simp [exec_en_eq_next, enabled]
  | dis => simp [exec_dis_eq_next, enabled]
  | det => simp [exec_det_eq_next, enabled]
  | wcl => simp [exec_wcl_eq_next, enabled, waitOver_eq_true]
  | rst => simp [exec_rst_eq_next, enabled]
  | dec raw => simp [exec_dec_eq_next, enabled]
  | tick k =>
    simp only [exec_tick_eq_next, exists_and_left, exists_eq', and_true, enabled]
    cases s.dw.wa with
    | false => exact iff_of_true (mayTick_eq_true.2 nofun) nofun
    | true => simpa using mayTick_iff_each_early k s.ms s.dw.ws

/-- The polling context is inside the busy-wait (10_state.md R53). -/
theorem exec_pollingBusy (hwa : s.dw.wa = true) (hi : i.agent = .polling) (hwcl : i ≠ .wcl) :
    exec i s = .refused .pollingBusy := by
  cases i with
  | lf | lr | cf | cr | tick _ => exact nomatch hi
  | wcl => exact absurd rfl hwcl
  | proc _ _ | en | dis | det | rst | dec _ =>
    simp only [exec, execProc, execEn, execDis, execDet, execRst, execDec, whenPollingFree_busy hwa]

end Sys2Proof.Proofs.Enabling

namespace Sys2Proof.Proofs

open Sys2Proof.Machine Enabling EdgeOutcome

/-- Settles O10: what does not complete is refused, since nothing faults. -/
theorem operationsRunExactlyWhenEnabled : Obligations.OperationsRunExactlyWhenEnabled := by
  unfold Obligations.OperationsRunExactlyWhenEnabled
  refine ⟨fun i s => exec_completes_iff_enabled.2, fun i s h => ?_, fun s => exec_cf_of_noFallIrq⟩
  exact (result_cases (exec i s)).resolve_left (mt exec_completes_iff_enabled.1 h)

/-- Settles O43: every polling operation but WCL is guarded. -/
theorem openWindowBlocksThePollingContext : Obligations.OpenWindowBlocksThePollingContext := by
  unfold Obligations.OpenWindowBlocksThePollingContext
  exact fun _ _ => exec_pollingBusy

end Sys2Proof.Proofs

namespace Sys2Proof.Proofs.Invariant

open Sys2Proof.Machine Frames Noninterference Enabling Detection

variable {i : Instr} {s t : State}

/-! ## The two configurations of LAT and CLK -/

theorem interruptsOnInputs_of_listening (h : s.Listening) : s.InterruptsOnInputs := by
  obtain ⟨hlat, hclk, hlie, hcie⟩ := h
  exact ⟨fun _ => hlat, fun _ => hclk, hlat.trans hclk.symm, hlie.trans hcie.symm⟩

theorem interruptsOnInputs_of_driving (h : s.Driving) : s.InterruptsOnInputs := by
  obtain ⟨hlat, hclk, hlie, hcie⟩ := h
  simp [State.InterruptsOnInputs, hlat, hclk, hlie, hcie]

theorem linesFollowMode_of_listening (h : s.Listening) (hmode : s.dw.wa = false → s.mode = .cd32) :
    s.LinesFollowMode := by
  have hnot : ¬ s.Driving := fun hdriving => nomatch h.1.symm.trans hdriving.1
  refine ⟨fun hwa => ⟨iff_of_true (hmode hwa) h, iff_of_false ?_ hnot⟩, fun _ => h⟩
  simp [hmode hwa]

theorem linesFollowMode_of_driving (h : s.Driving) (hmode : s.mode = .normal) (hwa : s.dw.wa = false) :
    s.LinesFollowMode := by
  have hnot : ¬ s.Listening := fun hlistening => nomatch h.1.symm.trans hlistening.1
  refine ⟨fun _ => ⟨iff_of_false ?_ hnot, iff_of_true hmode h⟩, fun hopen => nomatch hwa.symm.trans hopen⟩
  simp [hmode]

theorem listenLines_listening (s : State) : (listenLines s).Listening := ⟨rfl, rfl, rfl, rfl⟩

theorem enableCd32_listening (s : State) : (enableCd32 s).Listening := ⟨rfl, rfl, rfl, rfl⟩

/-- `disableCd32` releases the lines, unless it finds them as outputs in Normal mode (41_mode_controller.md R173). -/
theorem disableCd32_driving (h : s.mode = .normal → s.lat.role = .out → s.Driving) : (disableCd32 s).Driving := by
  obtain ⟨hmode, hlat, _, e⟩ | ⟨_, e⟩ := disableCd32_cases s <;> rw [e]
  · exact h hmode hlat
  · exact ⟨rfl, rfl, rfl, rfl⟩

/-! ## Interrupts on inputs only (10_state.md R50) -/

theorem disableCd32_interruptsOnInputs (h : s.InterruptsOnInputs) : (disableCd32 s).InterruptsOnInputs := by
  obtain ⟨_, _, _, e⟩ | ⟨_, e⟩ := disableCd32_cases s <;> rw [e]
  · exact h
  · exact interruptsOnInputs_of_driving ⟨rfl, rfl, rfl, rfl⟩

theorem decideMode_interruptsOnInputs (h : s.InterruptsOnInputs) : (decideMode s).InterruptsOnInputs := by
  unfold decideMode
  cases sawCd32 s.dw.pl s.dw.pc with
  | true => exact interruptsOnInputs_of_listening (enableCd32_listening s)
  | false => exact disableCd32_interruptsOnInputs h

theorem exec_interruptsOnInputs (hs : s.InterruptsOnInputs) (h : exec i s = .next t) : t.InterruptsOnInputs := by
  by_cases hi : Configures i
  · obtain rfl | rfl | rfl | rfl | rfl := hi
    · obtain ⟨_, rfl⟩ := exec_en_eq_next.1 h
      exact interruptsOnInputs_of_listening (enableCd32_listening s)
    · obtain ⟨_, rfl⟩ := exec_dis_eq_next.1 h
      exact disableCd32_interruptsOnInputs hs
    · obtain ⟨_, rfl⟩ := exec_det_eq_next.1 h
      cases s.dw.dd || !settled s.ms s.dw.lc with
      | true => exact hs
      | false => exact interruptsOnInputs_of_listening (listenLines_listening s)
    · obtain ⟨_, _, rfl⟩ := exec_wcl_eq_next.1 h
      exact decideMode_interruptsOnInputs (s := s.closeWindow) hs
    · obtain ⟨_, rfl⟩ := exec_rst_eq_next.1 h
      have hdisabled := disableCd32_interruptsOnInputs (s := s.clearDetection) hs
      rwa [State.InterruptsOnInputs, nextConnection_lat, nextConnection_clk]
  · have hsame := exec_sameLines hi h
    rwa [State.InterruptsOnInputs, hsame.lat_role, hsame.lat_ie, hsame.clk_role, hsame.clk_ie]

/-! ## The lines follow the mode (41_mode_controller.md R176) -/

theorem exec_linesFollowMode (hs : s.LinesFollowMode) (h : exec i s = .next t) : t.LinesFollowMode := by
  obtain ⟨houtside, hinside⟩ := hs
  by_cases hi : Configures i
  · obtain rfl | rfl | rfl | rfl | rfl := hi
    · obtain ⟨_, rfl⟩ := exec_en_eq_next.1 h
      exact linesFollowMode_of_listening (enableCd32_listening s) fun _ => rfl
    · obtain ⟨hwa, rfl⟩ := exec_dis_eq_next.1 h
      have hdriving := disableCd32_driving fun hmode _ => (houtside hwa).2.1 hmode
      exact linesFollowMode_of_driving hdriving (disableCd32_mode s) (by rwa [disableCd32_dw])
    · obtain ⟨_, rfl⟩ := exec_det_eq_next.1 h
      cases s.dw.dd || !settled s.ms s.dw.lc with
      | true => exact ⟨houtside, hinside⟩
      | false => exact linesFollowMode_of_listening (listenLines_listening s) nofun
    · obtain ⟨hwa, _, rfl⟩ := exec_wcl_eq_next.1 h
      unfold decideMode
      cases sawCd32 s.closeWindow.dw.pl s.closeWindow.dw.pc with
      | true => exact linesFollowMode_of_listening (enableCd32_listening _) fun _ => rfl
      | false =>
        have hdriving := disableCd32_driving (s := s.closeWindow) fun _ hlat => nomatch hlat.symm.trans (hinside hwa).1
        exact linesFollowMode_of_driving hdriving (disableCd32_mode _) (by simp)
    · obtain ⟨hwa, rfl⟩ := exec_rst_eq_next.1 h
      have hdriving := disableCd32_driving (s := s.clearDetection) fun hmode _ => (houtside hwa).2.1 hmode
      refine linesFollowMode_of_driving ?_ (by simp) (by simp)
      rwa [State.Driving, nextConnection_lat, nextConnection_clk]
  · have hsame := exec_sameLines hi h
    rw [State.LinesFollowMode, State.Listening, State.Driving, hsame.mode, hsame.wa, hsame.lat_role, hsame.lat_ie,
      hsame.clk_role, hsame.clk_ie]
    exact ⟨houtside, hinside⟩

/-! ## The other clauses of the invariant -/

theorem clockRiseAction_index (h : s.sh.idx ≤ 9#4) : (clockRiseAction s).sh.idx ≤ 9#4 := by
  obtain hlt | hge := Nat.lt_or_ge s.sh.idx.toNat 9
  · rw [EdgeOutcome.clockRiseAction_of_lt hlt]
    show s.sh.idx + 1 ≤ 9#4
    bv_omega
  · rwa [EdgeOutcome.clockRiseAction_of_ge hge]

/-- The protocol actions reset, keep or advance the index (10_state.md R35). -/
theorem actionOf_index (i : Instr) (h : s.sh.idx ≤ 9#4) : (actionOf i s).sh.idx ≤ 9#4 := by
  cases i with
  | lf => exact show (0 : BitVec 4) ≤ 9#4 by decide
  | cr => exact clockRiseAction_index h
  | lr | cf | proc _ _ | en | dis | det | wcl | rst | dec _ | tick _ => exact h

theorem exec_index (hs : s.sh.idx ≤ 9#4) (h : exec i s = .next t) : t.sh.idx ≤ 9#4 := by
  by_cases hi : i.agent = .handler
  · have hmoved : (s.setExt (lineOf i) (levelOf i)).sh.idx ≤ 9#4 := by rwa [setExt_sh]
    obtain rfl | ⟨_, _, rfl⟩ | ⟨_, _, _, rfl⟩ := exec_handler_cases hi h
    · exact hmoved
    · rwa [countEdge_sh]
    · exact actionOf_index i hmoved
  · rwa [(exec_sameHandler hi h).sh]

/-- A window opens with no time elapsed, and a TICK stops at 100 ms (43_autodetector.md R231, R234). -/
theorem exec_windowPhase (hs : s.WindowPhase) (h : exec i s = .next t) : t.WindowPhase := by
  intro hopen
  cases hwa : s.dw.wa with
  | false =>
    by_cases hopens : OpensWindow i s
    · rw [exec_of_opensWindow hwa hopens, next_inj] at h
      subst h
      exact ⟨rfl, by simp [elapsed]⟩
    · have hclosed := exec_wa_false hwa hopens h
      exact nomatch hclosed.symm.trans hopen
  | true =>
    obtain ⟨hdd, hage⟩ := hs hwa
    cases hagent : i.agent with
    | handler =>
      have hsame := exec_handler_samePolling hagent h
      rw [hsame.dd, hsame.ms, hsame.ws]
      exact ⟨hdd, hage⟩
    | polling =>
      by_cases hwcl : i = .wcl
      · subst hwcl
        obtain ⟨_, _, rfl⟩ := exec_wcl_eq_next.1 h
        rw [decideMode_dw, closeWindow_dw_written] at hopen
        exact nomatch hopen
      · rw [exec_pollingBusy hwa hagent hwcl] at h
        exact nomatch h
    | environment =>
      cases i with
      | tick k =>
        obtain ⟨hmay, rfl⟩ := exec_tick_eq_next.1 h
        have hk := mayTick_eq_true.1 hmay hwa
        refine ⟨hdd, ?_⟩
        rw [advanceMs_ms_written, advanceMs_dw, elapsed_add]
        omega
      | lf | lr | cf | cr | proc _ _ | en | dis | det | wcl | rst | dec _ => exact nomatch hagent

/-- Every operation keeps the invariant, clause by clause. -/
theorem exec_inv (hs : s.Inv) (h : exec i s = .next t) : t.Inv where
  buttonWord := by
    obtain hsame | ⟨_, hform⟩ := exec_buttonWord h
    · rw [hsame]
      exact hs.buttonWord
    · exact hform
  index := exec_index hs.index h
  interrupts := exec_interruptsOnInputs hs.interrupts h
  lines := exec_linesFollowMode hs.lines h
  window := exec_windowPhase hs.window h
  params := by
    rw [exec_par h]
    exact hs.params

/-- A step idles or performs an operation. -/
theorem step_eq_next (h : step s = .next t) : t = s ∨ ∃ i rest, exec i { s with trace := rest } = .next t := by
  by_cases htrace : s.trace = []
  · rw [WordTrace.step_idle htrace, next_inj] at h
    exact .inl h.symm
  · cases hdecode : decode s.trace with
    | error e =>
      rw [WordTrace.step_of_refused_words htrace hdecode] at h
      exact nomatch h
    | ok p =>
      obtain ⟨i, rest⟩ := p
      exact .inr ⟨i, rest, (WordTrace.step_of_decode hdecode).symm.trans h⟩

/-! ## The state after reset -/

section

variable (p : Params) (c : HidFieldConfig) (le ce : Level) (ms ws : Word) (lw : BitVec 16) (sv : BitVec 3)

theorem powerOn_driving : (State.powerOn p c le ce ms lw sv ws).Driving := ⟨rfl, rfl, rfl, rfl⟩

theorem powerOn_interruptsOnInputs : (State.powerOn p c le ce ms lw sv ws).InterruptsOnInputs :=
  interruptsOnInputs_of_driving (powerOn_driving p c le ce ms ws lw sv)

theorem powerOn_linesFollowMode : (State.powerOn p c le ce ms lw sv ws).LinesFollowMode :=
  linesFollowMode_of_driving (powerOn_driving p c le ce ms ws lw sv) rfl rfl

theorem powerOn_inv (hp : p.Legal) : (State.powerOn p c le ce ms lw sv ws).Inv where
  buttonWord := show ButtonWordForm 0x0300 by decide
  index := show (0 : BitVec 4) ≤ 9#4 by decide
  interrupts := powerOn_interruptsOnInputs p c le ce ms ws lw sv
  lines := powerOn_linesFollowMode p c le ce ms ws lw sv
  window := nofun
  params := hp

end

/-! ## Before anything moves (70_reset_and_hazards.md R301) -/

/-- Every latch is high, and LAT and CLK are outputs with their interrupts off, in Normal mode outside the window. -/
def Quiet (s : State) : Prop := (∀ l, s.lineOut l = true) ∧ s.Driving ∧ s.mode = .normal ∧ s.dw.wa = false

@[simp] theorem lineOut_setExt (s : State) (m : InLine) (v : Level) (l : Line) :
    (s.setExt m v).lineOut l = s.lineOut l := by
  cases m <;> cases l <;> rfl

theorem quiet_setExt (h : Quiet s) (m : InLine) (v : Level) : Quiet (s.setExt m v) := by
  obtain ⟨hlatches, hdriving, hmode, hwa⟩ := h
  refine ⟨by simpa using hlatches, ?_, by simpa using hmode, by simpa using hwa⟩
  cases m <;> exact hdriving

theorem quiet_nextConnection (h : Quiet s) : Quiet (nextConnection s) := by
  unfold nextConnection
  split <;> exact h

/-- With the interrupts off an edge only moves its line, and DIS finds the Normal-mode configuration in place. -/
theorem exec_quiet (hs : Quiet s) (h : exec i s = .next t) (hproc : ∀ dp ex, i ≠ .proc dp ex) (hen : i ≠ .en)
    (hdet : i = .det → elapsed s.ms s.dw.lc < 500) : Quiet t := by
  have ⟨hlatches, ⟨hlat, hclk, hlie, hcie⟩, hmode, hwa⟩ := hs
  have hoff (l : InLine) : (s.pin l).ie = false := by
    cases l
    · exact hlie
    · exact hcie
  cases i with
  | lf | lr | cf | cr =>
    obtain rfl | ⟨hie, _⟩ | ⟨hie, _⟩ := exec_handler_cases rfl h
    · exact quiet_setExt hs _ _
    · exact nomatch (hoff _).symm.trans hie
    · exact nomatch (hoff _).symm.trans hie
  | proc dp ex => exact absurd rfl (hproc dp ex)
  | en => exact absurd rfl hen
  | dis =>
    obtain ⟨_, rfl⟩ := exec_dis_eq_next.1 h
    rwa [ModeSwitch.disableCd32_of_inPlace hmode hlat hclk]
  | det =>
    rw [exec_det_of_notDue hwa (.inr (hdet rfl)), next_inj] at h
    rwa [← h]
  | wcl =>
    rw [exec_wcl_notOpen hwa] at h
    exact nomatch h
  | rst =>
    obtain ⟨_, rfl⟩ := exec_rst_eq_next.1 h
    rw [ModeSwitch.disableCd32_of_inPlace (s := s.clearDetection) hmode hlat hclk]
    exact quiet_nextConnection ⟨hlatches, hs.2.1, hmode, rfl⟩
  | dec raw =>
    obtain ⟨_, _, rfl⟩ := exec_dec_eq_next.1 h
    split
    · exact hs
    · split <;> exact hs
  | tick k =>
    obtain ⟨_, rfl⟩ := exec_tick_eq_next.1 h
    exact hs

end Sys2Proof.Proofs.Invariant

namespace Sys2Proof.Proofs

open Sys2Proof.Machine Invariant PowerOn

/-- Settles O13: `State.reset` is the power-on state of the reference parameters. -/
theorem powerOnMeetsTheInvariant : Obligations.PowerOnMeetsTheInvariant := by
  unfold Obligations.PowerOnMeetsTheInvariant
  exact ⟨powerOn_inv _ _ _ _ _ _ _ _ (by decide), powerOn_inv⟩

/-- Settles O14: a step is an operation on the state with the words taken off, which the invariant does not mention. -/
theorem stepKeepsTheInvariant : Obligations.StepKeepsTheInvariant := by
  unfold Obligations.StepKeepsTheInvariant
  intro s t hs h
  obtain rfl | ⟨i, rest, hexec⟩ := step_eq_next h
  · exact hs
  · have hs' : State.Inv { s with trace := rest } :=
      ⟨hs.buttonWord, hs.index, hs.interrupts, hs.lines, hs.window, hs.params⟩
    exact exec_inv hs' hexec

/-- Settles O15: only five operations configure the lines, each as inputs with interrupts or as outputs without. -/
theorem interruptsOnlyOnInputs : Obligations.InterruptsOnlyOnInputs := by
  unfold Obligations.InterruptsOnlyOnInputs
  exact ⟨powerOn_interruptsOnInputs, fun _ _ _ => exec_interruptsOnInputs⟩

/-- Settles O16: the five operations that configure the lines leave mode and lines in step. -/
theorem linesFollowTheMode : Obligations.LinesFollowTheMode := by
  unfold Obligations.LinesFollowTheMode
  exact ⟨powerOn_linesFollowMode, fun _ _ _ => exec_linesFollowMode⟩

/-- Settles O21: the power-on state is quiet, and the operations left keep it so. -/
theorem nothingMovesBeforeProcEnOrDet : Obligations.NothingMovesBeforeProcEnOrDet := by
  unfold Obligations.NothingMovesBeforeProcEnOrDet
  constructor
  · rintro p c le ce ms ws lw sv s rfl
    exact ⟨powerOn_lineOut p c le ce ms ws lw sv, powerOn_driving p c le ce ms ws lw sv, rfl⟩
  · intro i s t hlatches hdriving hmode hwa h hproc hen hdet
    exact exec_quiet ⟨hlatches, hdriving, hmode, hwa⟩ h hproc hen hdet

end Sys2Proof.Proofs
end

section
/-! PROC and the lines it drives; EN and DIS twice; the pads (41_mode_controller.md R171, R175; 10_state.md R48). -/

namespace Sys2Proof.Proofs.ProcLines

open Sys2Proof.Machine

theorem dualLine_inj {a b : DualLine} : dualLine a = dualLine b ↔ a = b := by
  cases a <;> cases b <;> simp [dualLine]

section

variable {s t u : State} {dp ex : Byte}

/-! ## What is written -/

theorem procButtons_normal (dp : Byte) (h : s.mode = .normal) :
    procButtons dp s =
      ((s.lineWrite (dualLine s.par.btnLine.b4) !dp.getLsbD 4).lineWrite (dualLine s.par.btnLine.b5)
        !dp.getLsbD 5).lineWrite (dualLine s.par.btnLine.b6) !dp.getLsbD 6 := by
  simp only [procButtons, h]

/-- The three assigned lines are different lines, so none of them is written twice (00_scope.md R103). -/
theorem lineOut_procButtons (hlegal : s.par.Legal) (h : s.mode = .normal) :
    (procButtons dp s).lineOut (dualLine s.par.btnLine.b4) = (!dp.getLsbD 4) ∧
      (procButtons dp s).lineOut (dualLine s.par.btnLine.b5) = (!dp.getLsbD 5) ∧
      (procButtons dp s).lineOut (dualLine s.par.btnLine.b6) = !dp.getLsbD 6 := by
  have hdiffer : ¬ s.par.btnLine.b4 = s.par.btnLine.b5 ∧ ¬ s.par.btnLine.b4 = s.par.btnLine.b6 ∧
      ¬ s.par.btnLine.b5 = s.par.btnLine.b6 := by
    simpa [and_assoc] using hlegal.2
  simp [procButtons_normal dp h, lineOut_lineWrite, dualLine_inj, hdiffer]

theorem get_procDirections (i : Fin 4) : (procDirections dp s).dir.get i = !dp.getLsbD i := by
  fin_cases i <;> rfl

theorem lineOut_dir_proc (i : Fin 4) :
    (procButtons dp (procWord dp ex (procDirections dp s))).lineOut (.dir i) = !dp.getLsbD i :=
  (congrArg (DirLines.get · i) (procButtons_dir _ dp)).trans (get_procDirections i)

/-! ## What is left alone -/

/-- `t` is `s` but for the latches and the button word. -/
def DrivenFrom (s t : State) : Prop :=
  t = { s with dir := t.dir, bw := t.bw, lat := { s.lat with olat := t.lat.olat },
               clk := { s.clk with olat := t.clk.olat }, dat := t.dat }

theorem DrivenFrom.trans (h : DrivenFrom s t) (h' : DrivenFrom t u) : DrivenFrom s u :=
  Eq.trans h' (by rw [h])

theorem drivenFrom_lineWrite (s : State) (l : Line) (v : Level) : DrivenFrom s (s.lineWrite l v) := by
  cases l <;> rfl

theorem drivenFrom_procButtons (dp : Byte) (s : State) : DrivenFrom s (procButtons dp s) := by
  cases hmode : s.mode with
  | cd32 =>
    rw [procButtons_cd32 dp hmode]
    rfl
  | normal =>
    rw [procButtons_normal dp hmode]
    exact ((drivenFrom_lineWrite s _ _).trans (drivenFrom_lineWrite _ _ _)).trans (drivenFrom_lineWrite _ _ _)

/-! ## Writing the same again -/

theorem lineWrite_of_lineOut {l : Line} {v : Level} (h : s.lineOut l = v) : s.lineWrite l v = s := by
  subst h
  cases l with
  | dir i => fin_cases i <;> rfl
  | lat | clk | dat => rfl

theorem procDirections_of_dir (h : s.dir = (procDirections dp t).dir) : procDirections dp s = s := by
  rw [procDirections_dir_written] at h
  cases s
  simp_all [procDirections, DirLines.set]

theorem procWord_of_bw (h : s.bw = remap dp ex) : procWord dp ex s = s := by
  rw [procWord, ← h]
  rfl

theorem procButtons_of_lineOut (h : s.mode = .normal → s.lineOut (dualLine s.par.btnLine.b4) = (!dp.getLsbD 4) ∧
      s.lineOut (dualLine s.par.btnLine.b5) = (!dp.getLsbD 5) ∧
      s.lineOut (dualLine s.par.btnLine.b6) = !dp.getLsbD 6) :
    procButtons dp s = s := by
  cases hmode : s.mode with
  | cd32 => exact procButtons_cd32 dp hmode
  | normal =>
    obtain ⟨h4, h5, h6⟩ := h hmode
    rw [procButtons_normal dp hmode, lineWrite_of_lineOut h4, lineWrite_of_lineOut h5, lineWrite_of_lineOut h6]

/-- The three groups leave what a further PROC with the same operands would write. -/
theorem proc_proc (dp ex : Byte) (hlegal : s.par.Legal)
    (ht : t = procButtons dp (procWord dp ex (procDirections dp s))) :
    procButtons dp (procWord dp ex (procDirections dp t)) = t := by
  have hdir : t.dir = (procDirections dp s).dir := by rw [ht, procButtons_dir, procWord_dir]
  have hbw : t.bw = remap dp ex := by rw [ht, procButtons_bw, procWord_bw_written]
  rw [procDirections_of_dir hdir, procWord_of_bw hbw]
  refine procButtons_of_lineOut fun hmode => ?_
  subst ht
  rw [procButtons_mode] at hmode
  rw [procButtons_par]
  exact lineOut_procButtons hlegal hmode

end

/-! ## EN and DIS twice (41_mode_controller.md R175) -/

theorem disableCd32_disableCd32 (s : State) : disableCd32 (disableCd32 s) = disableCd32 s := by
  obtain ⟨_, _, _, e⟩ | ⟨_, e⟩ := disableCd32_cases s <;> rw [e]
  · exact e
  · exact ModeSwitch.disableCd32_of_inPlace rfl rfl rfl

/-! ## Pads (10_state.md R48) -/

section

variable {s : State} (l : InLine)

theorem role_line : s.role l.line = (s.pin l).role := by cases l <;> rfl

theorem lineOut_line : s.lineOut l.line = (s.pin l).olat := by cases l <;> rfl

theorem pad_line : s.pad l.line = s.pinPad l := by cases l <;> rfl

theorem pinPad_of_input (h : (s.pin l).role = .inpu) : s.pinPad l = some (s.pin l).ext := by
  simp [State.pinPad, h]

theorem pinPad_of_output (h : (s.pin l).role = .out) :
    s.pinPad l = bif (s.pin l).olat && !(s.pin l).ext then none else some (s.pin l).olat := by
  simp [State.pinPad, State.contended, h]

end

end Sys2Proof.Proofs.ProcLines

namespace Sys2Proof.Proofs

open Sys2Proof.Machine ProcLines EdgeOutcome Enabling

/-- Settles O34: the three groups write different registers, and writing them again changes nothing. -/
theorem procDrivesTheLines : Obligations.ProcDrivesTheLines := by
  unfold Obligations.ProcDrivesTheLines
  intro dp ex s hlegal
  refine ⟨fun hwa => exec_pollingBusy hwa rfl nofun, fun hwa => ?_⟩
  have hframe : DrivenFrom s (procButtons dp (procWord dp ex (procDirections dp s))) :=
    DrivenFrom.trans (t := procWord dp ex (procDirections dp s)) rfl (drivenFrom_procButtons dp _)
  refine ⟨_, exec_proc_eq_next.2 ⟨hwa, rfl⟩, fun i => ?_, ?_, fun hmode => ?_, fun hmode => ?_, hframe, ?_⟩
  · exact lineOut_dir_proc i
  · rw [procButtons_bw, procWord_bw_written]
  · exact lineOut_procButtons (s := procWord dp ex (procDirections dp s)) hlegal hmode
  · rw [procButtons_cd32 dp (s := procWord dp ex (procDirections dp s)) hmode]
    exact ⟨rfl, rfl, rfl⟩
  · exact exec_proc_eq_next.2 ⟨by simpa using hwa, proc_proc dp ex hlegal rfl⟩

/-- Settles O38: the second EN writes the same again, and the second DIS finds the configuration in place. -/
theorem enableAndDisableAreIdempotent : Obligations.EnableAndDisableAreIdempotent := by
  unfold Obligations.EnableAndDisableAreIdempotent
  intro s hwa
  have hen : exec .en s = .next (enableCd32 s) := exec_en_eq_next.2 ⟨hwa, rfl⟩
  have hdis : exec .dis s = .next (disableCd32 s) := exec_dis_eq_next.2 ⟨hwa, rfl⟩
  refine ⟨⟨_, hen, runOps_pair hen ?_⟩, ⟨_, hdis, runOps_pair hdis ?_⟩⟩
  · exact exec_en_eq_next.2 ⟨hwa, rfl⟩
  · exact exec_dis_eq_next.2 ⟨by rwa [disableCd32_dw], disableCd32_disableCd32 s⟩

/-- Settles O22: the role decides, and for an output whether the host pulls it low. -/
theorem padShowsLatchOrHostLevel : Obligations.PadShowsLatchOrHostLevel := by
  unfold Obligations.PadShowsLatchOrHostLevel
  simp only [role_line, lineOut_line, pad_line]
  intro s
  refine ⟨fun _ => rfl, rfl, fun l => pinPad_of_input l, fun l hrole hcase => ?_, fun l hrole hext hlatch => ?_⟩
  · rw [pinPad_of_output l hrole]
    obtain hext | hlatch := hcase
    · simp [hext]
    · simp [hlatch]
  · simp [pinPad_of_output l hrole, hext, hlatch]

/-- Settles O7: the lines are run through the assembler. -/
theorem traceLinesAssemble : Obligations.TraceLinesAssemble := by
  unfold Obligations.TraceLinesAssemble
  decide

end Sys2Proof.Proofs
end

section
/-! The connection reset and what lasts until it (43_autodetector.md R233, R235). -/

namespace Sys2Proof.Proofs.Connection

open Sys2Proof.Machine Frames Detection

variable {s t : State} {i : Instr}

/-- The next layout is taken off the list where there is one (R233 corner case b). -/
theorem nextConnection_eq (s : State) :
    nextConnection s = { s with cfg := s.connections.headD s.cfg, connections := s.connections.tail } := by
  obtain ⟨⟩ := s
  next connections _ _ => cases connections <;> rfl

/-- Only RST clears `DW.dd`. -/
theorem exec_dd (hdd : s.dw.dd = true) (hrst : i ≠ .rst) (h : exec i s = .next t) : t.dw.dd = true := by
  by_cases hi : Configures i
  · obtain rfl | rfl | rfl | rfl | rfl := hi
    · obtain ⟨_, rfl⟩ := exec_en_eq_next.1 h
      exact hdd
    · obtain ⟨_, rfl⟩ := exec_dis_eq_next.1 h
      rwa [disableCd32_dw]
    · obtain ⟨_, rfl⟩ := exec_det_eq_next.1 h
      rwa [hdd, Bool.true_or, cond_true]
    · obtain ⟨_, _, rfl⟩ := exec_wcl_eq_next.1 h
      rwa [decideMode_dw]
    · exact absurd rfl hrst
  · rwa [(exec_sameLines hi h).dd]

/-- A DET that opens a window sets it. -/
theorem exec_det_dd (hclosed : s.dw.wa = false) (hopen : t.dw.wa = true) (h : exec .det s = .next t) :
    t.dw.dd = true := by
  by_cases hopens : OpensWindow .det s
  · rw [exec_of_opensWindow hclosed hopens, next_inj] at h
    rw [← h]
    rfl
  · exact nomatch (exec_wa_false hclosed hopens h).symm.trans hopen

end Sys2Proof.Proofs.Connection

namespace Sys2Proof.Proofs

open Sys2Proof.Machine Connection Detection Enabling

/-- Settles O41: the state that DIS starts from is `clearDetection`. -/
theorem connectionResetClearsDetection : Obligations.ConnectionResetClearsDetection := by
  unfold Obligations.ConnectionResetClearsDetection
  refine ⟨rfl, fun s => ⟨fun hwa => exec_pollingBusy hwa rfl nofun, fun hwa => ?_⟩⟩
  have hdis : exec .dis s.clearDetection = .next (disableCd32 s.clearDetection) := exec_dis_eq_next.2 ⟨rfl, rfl⟩
  refine ⟨_, _, exec_rst_eq_next.2 ⟨hwa, rfl⟩, hdis, ?_⟩
  rw [nextConnection_eq, disableCd32_cfg, disableCd32_connections]
  rfl

/-- Settles O44: `DW.dd` stays 1 until an RST, and with it a DET does nothing. -/
theorem detectionRunsOncePerConnection : Obligations.DetectionRunsOncePerConnection := by
  unfold Obligations.DetectionRunsOncePerConnection
  intro ops s₁ s₂ s₃ s₄ hfirst hclosed hopen hrst hruns hagain
  have hdone : s₃.dw.dd = true :=
    runOps_keeps (P := fun s => s.dw.dd = true) (fun i hi s t hdd => exec_dd hdd fun h => hrst (h ▸ hi))
      (exec_det_dd hclosed hopen hfirst) hruns
  obtain ⟨hwa, _⟩ := exec_det_eq_next.1 hagain
  rw [exec_det_of_notDue hwa (.inl hdone), next_inj] at hagain
  exact hagain.symm

end Sys2Proof.Proofs
end

section
/-! Read cycles: the word shifted out in CD32 mode, and the edges counted in the window (42_shift_engine.md R205 to
R207, 43_autodetector.md R237). -/

namespace Sys2Proof.Proofs.ReadCycle

open Sys2Proof.Machine Frames EdgeOutcome

/-! ## Clock pulses -/

theorem clkps_succ (m : Nat) : clkps (m + 1) = clkp ++ clkps m := by
  simp [clkps, List.replicate_succ]

theorem mem_clkps {m : Nat} {i : Instr} (h : i ∈ clkps m) : i = .cf ∨ i = .cr := by
  simp only [clkps, clkp, List.mem_flatten, List.mem_replicate] at h
  obtain ⟨_, ⟨_, rfl⟩, hi⟩ := h
  simpa using hi

theorem count_cr_clkps (m : Nat) : (clkps m).count .cr = m := by
  induction m with
  | zero => rfl
  | succ m ih =>
    have hpulse : clkp.count .cr = 1 := by decide
    rw [clkps_succ, List.count_append, ih, hpulse, Nat.add_comm]

section

variable {i : Instr} {s t : State}

theorem setExt_pin_ext (s : State) (l m : InLine) (v : Level) :
    ((s.setExt l v).pin m).ext = if m = l then v else (s.pin m).ext := by
  cases l <;> cases m <;> rfl

theorem countEdge_pin (s : State) (l m : InLine) : (countEdge l s).pin m = s.pin m := by
  cases l <;> cases m <;> rfl

theorem actionOf_pin_ext (i : Instr) (s : State) (m : InLine) : ((actionOf i s).pin m).ext = (s.pin m).ext := by
  cases i with
  | cr => cases m <;> simp [actionOf]
  | lf | lr | cf | proc _ _ | en | dis | det | wcl | rst | dec _ | tick _ => cases m <;> rfl

/-- A handler operation moves its own line, and no other (R200). -/
theorem exec_handler_ext (hi : i.agent = .handler) (h : exec i s = .next t) (m : InLine) :
    (t.pin m).ext = if m = lineOf i then levelOf i else (s.pin m).ext := by
  obtain rfl | ⟨_, _, rfl⟩ | ⟨_, _, _, rfl⟩ := exec_handler_cases hi h
  · exact setExt_pin_ext ..
  · rw [countEdge_pin, setExt_pin_ext]
  · rw [actionOf_pin_ext, setExt_pin_ext]

/-- From a high Clock line any number of pulses completes and leaves both lines where they were. -/
theorem clkps_completes (m : Nat) (hclk : s.clk.ext = true) :
    ∃ t, runOps (clkps m) s = .next t ∧ t.clk.ext = true ∧ t.lat.ext = s.lat.ext := by
  induction m generalizing s with
  | zero => exact ⟨s, rfl, hclk, rfl⟩
  | succ m ih =>
    obtain ⟨low, hfall⟩ := Enabling.exec_completes_iff_enabled.2 (show enabled .cf s from hclk)
    have hlow : low.clk.ext = false := exec_handler_ext rfl hfall .clk
    obtain ⟨high, hrise⟩ := Enabling.exec_completes_iff_enabled.2 (show enabled .cr low from hlow)
    have hhigh : high.clk.ext = true := exec_handler_ext rfl hrise .clk
    have hlat : high.lat.ext = s.lat.ext :=
      (exec_handler_ext rfl hrise .lat).trans (exec_handler_ext rfl hfall .lat)
    obtain ⟨t, hrun, ht, htlat⟩ := ih hhigh
    refine ⟨t, ?_, ht, htlat.trans hlat⟩
    rw [clkps_succ, runOps_append, clkp, runOps_pair hfall hrise, andThen_next, hrun]

end

/-! ## A burst in CD32 mode (42_shift_engine.md R207) -/

/-- After an LF in the state `r` and `m` Clock pulses: the index is at `m` or at its last value, and DAT shows that bit
of the word latched. -/
structure Shifting (r : State) (m : Nat) (t : State) : Prop where
  mode : t.mode = .cd32
  wa : t.dw.wa = false
  lat_ie : t.lat.ie = true
  clk_ie : t.clk.ie = true
  lw : t.sh.lw = r.bw
  sv : t.sh.sv = savedLevels r
  idx : t.sh.idx.toNat = min m 9
  dat : t.dat = !r.bw.getLsbD (min m 9)

/-- The operations that may stand inside a burst (R207). -/
def InBurst (i : Instr) : Prop :=
  i = .cf ∨ i = .cr ∨ i = .en ∨ (∃ k, i = .tick k) ∨ (∃ dp ex, i = .proc dp ex) ∨ ∃ raw, i = .dec raw

section

variable {r s t : State} {i : Instr} {m : Nat}

theorem shifting_of_exec_lf (hlie : r.lat.ie = true) (hcie : r.clk.ie = true) (hwa : r.dw.wa = false)
    (hmode : r.mode = .cd32) (h : exec .lf r = .next s) : Shifting r 0 s := by
  obtain ⟨hext, _⟩ := exec_lf_eq_next.1 h
  obtain rfl : latchFallAction (r.setExt .lat false) = s :=
    next_inj.1 ((edge_cd32 .lat false latchFallAction hext hlie hwa hmode).symm.trans h)
  exact ⟨hmode, hwa, hlie, hcie, rfl, rfl, rfl, rfl⟩

theorem Shifting.of_same (hs : Shifting r m s) (hlines : SameLines s t) (hsh : t.sh = s.sh) (hdat : t.dat = s.dat) :
    Shifting r m t where
  mode := hlines.mode.trans hs.mode
  wa := hlines.wa.trans hs.wa
  lat_ie := hlines.lat_ie.trans hs.lat_ie
  clk_ie := hlines.clk_ie.trans hs.clk_ie
  lw := hsh ▸ hs.lw
  sv := hsh ▸ hs.sv
  idx := hsh ▸ hs.idx
  dat := hdat.trans hs.dat

/-- The next bit, the index saturating at 9 (R203). -/
theorem Shifting.clockRise (hs : Shifting r m s) : Shifting r (m + 1) (clockRiseAction s) := by
  have hidx := hs.idx
  obtain hlt | hge := Nat.lt_or_ge s.sh.idx.toNat 9
  · have hnext : min (m + 1) 9 = s.sh.idx.toNat + 1 := by omega
    have hindex : (s.sh.idx + 1).toNat = s.sh.idx.toNat + 1 := by bv_omega
    rw [clockRiseAction_of_lt hlt]
    exact ⟨hs.mode, hs.wa, hs.lat_ie, hs.clk_ie, hs.lw, hs.sv, by rw [hnext, ← hindex], by rw [hnext, ← hs.lw]⟩
  · have hlast : min (m + 1) 9 = min m 9 := by omega
    rw [clockRiseAction_of_ge hge]
    exact ⟨hs.mode, hs.wa, hs.lat_ie, hs.clk_ie, hs.lw, hs.sv, by rw [hlast, hs.idx], by rw [hlast, hs.dat]⟩

/-- Of the operations inside a burst only CR shifts. -/
theorem exec_shifting (hi : InBurst i) (hs : Shifting r m s) (h : exec i s = .next t) :
    Shifting r (m + if i == .cr then 1 else 0) t := by
  obtain rfl | rfl | rfl | ⟨k, rfl⟩ | ⟨dp, ex, rfl⟩ | ⟨raw, rfl⟩ := hi
  · have hshift := exec_cf_shift h rfl
    exact hs.of_same (exec_sameLines (by simp [Configures]) h) hshift.2 hshift.1
  · obtain ⟨hext, _⟩ := exec_cr_eq_next.1 h
    obtain rfl : clockRiseAction (s.setExt .clk true) = t :=
      next_inj.1 ((edge_cd32 .clk true clockRiseAction hext hs.clk_ie hs.wa hs.mode).symm.trans h)
    exact (hs.of_same (samePolling_setExt s .clk true).sameLines rfl rfl).clockRise
  · obtain ⟨_, rfl⟩ := exec_en_eq_next.1 h
    exact ⟨rfl, hs.wa, rfl, rfl, hs.lw, hs.sv, hs.idx, hs.dat⟩
  · obtain ⟨_, rfl⟩ := exec_tick_eq_next.1 h
    exact hs.of_same (exec_sameLines (by simp [Configures]) h) rfl rfl
  · obtain ⟨_, rfl⟩ := exec_proc_eq_next.1 h
    refine hs.of_same (exec_sameLines (by simp [Configures]) h) (by simp) ?_
    rw [procButtons_cd32 dp (s := procWord dp ex (procDirections dp s)) hs.mode]
    rfl
  · have hsame := exec_sameHandler (i := .dec raw) (by simp [Instr.agent]) h
    obtain ⟨_, _, rfl⟩ := exec_dec_eq_next.1 h
    refine hs.of_same (exec_sameLines (by simp [Configures]) h) hsame.sh ?_
    split
    · rfl
    · split <;> rfl

theorem runOps_shifting {ops : List Instr} (hops : ∀ i ∈ ops, InBurst i) (hs : Shifting r m s)
    (h : runOps ops s = .next t) : Shifting r (m + ops.count .cr) t := by
  induction ops generalizing s m with
  | nil => exact next_inj.1 h ▸ hs
  | cons i ops ih =>
    obtain ⟨hi, hrest⟩ := List.forall_mem_cons.1 hops
    obtain ⟨u, hu, h⟩ := andThen_eq_next.1 h
    have ht := ih hrest (exec_shifting hi hs hu) h
    rwa [Nat.add_assoc, Nat.add_comm (ite _ _ _), ← List.count_cons] at ht

/-- LR brings back the levels that the LF saved (R202). -/
theorem exec_lr_restores (hs : Shifting r m s) (h : exec .lr s = .next t) :
    t.dat = r.dat ∧ t.lat.olat = r.lat.olat ∧ t.clk.olat = r.clk.olat ∧ t.mode = .cd32 := by
  obtain ⟨hext, _⟩ := exec_lr_eq_next.1 h
  obtain rfl : latchRiseAction (s.setExt .lat true) = t :=
    next_inj.1 ((edge_cd32 .lat true latchRiseAction hext hs.lat_ie hs.wa hs.mode).symm.trans h)
  obtain ⟨hlat, hclk, hdat⟩ := savedLevels_getLsbD r
  refine ⟨?_, ?_, ?_, hs.mode⟩
  · rw [latchRiseAction_dat_written, setExt_sh, hs.sv, hdat]
  · rw [latchRiseAction_lat_written, setExt_sh, hs.sv, hlat]
  · rw [latchRiseAction_clk_written, setExt_sh, hs.sv, hclk]

/-- A plain burst completes from high lines. -/
theorem burst_completes (hlat : r.lat.ext = true) (hclk : r.clk.ext = true) (m : Nat) :
    ∃ t, runOps (burst m) r = .next t := by
  obtain ⟨s, hfall⟩ := Enabling.exec_completes_iff_enabled.2 (show enabled .lf r from hlat)
  have hslat : s.lat.ext = false := exec_handler_ext rfl hfall .lat
  have hsclk : s.clk.ext = true := (exec_handler_ext rfl hfall .clk).trans hclk
  obtain ⟨u, hpulses, _, hulat⟩ := clkps_completes m hsclk
  obtain ⟨t, hrise⟩ := Enabling.exec_completes_iff_enabled.2 (show enabled .lr u from hulat.trans hslat)
  refine ⟨t, ?_⟩
  rw [burst, List.cons_append, runOps_cons, hfall, andThen_next, runOps_append, hpulses, andThen_next, runOps_cons,
    hrise, andThen_next, runOps_nil]

theorem inBurst_of_mem_clkps (h : i ∈ clkps m) : InBurst i := by
  obtain rfl | rfl := mem_clkps h
  · exact .inl rfl
  · exact .inr (.inl rfl)

/-! ## The word latched (42_shift_engine.md R205) -/

theorem clockRiseAction_lw (s : State) : (clockRiseAction s).sh.lw = s.sh.lw := by
  unfold clockRiseAction
  split <;> rfl

/-- Only LF latches a word. -/
theorem exec_lw (hlf : i ≠ .lf) (h : exec i s = .next t) : t.sh.lw = s.sh.lw := by
  by_cases hi : i.agent = .handler
  · have hmoved : (s.setExt (lineOf i) (levelOf i)).sh.lw = s.sh.lw := by rw [setExt_sh]
    obtain rfl | ⟨_, _, rfl⟩ | ⟨_, _, _, rfl⟩ := exec_handler_cases hi h
    · exact hmoved
    · rwa [countEdge_sh]
    · cases i with
      | lf => exact absurd rfl hlf
      | cr => exact (clockRiseAction_lw _).trans hmoved
      | lr | cf | proc _ _ | en | dis | det | wcl | rst | dec _ | tick _ => exact hmoved
  · rw [(exec_sameHandler hi h).sh]

theorem clockRiseAction_drives (s : State) :
    ((clockRiseAction s).sh.idx ≠ s.sh.idx →
      (clockRiseAction s).dat = !s.sh.lw.getLsbD (clockRiseAction s).sh.idx.toNat) ∧
    ((clockRiseAction s).sh.idx = s.sh.idx → (clockRiseAction s).dat = s.dat) := by
  obtain hlt | hge := Nat.lt_or_ge s.sh.idx.toNat 9
  · have hindex : s.sh.idx.toNat + 1 = (s.sh.idx + 1).toNat := by bv_omega
    rw [clockRiseAction_of_lt hlt]
    refine ⟨fun _ => congrArg (fun n => !s.sh.lw.getLsbD n) hindex, fun hsame => ?_⟩
    have hstays : s.sh.idx + 1 = s.sh.idx := hsame
    bv_omega
  · rw [clockRiseAction_of_ge hge]
    exact ⟨fun hmoved => absurd rfl hmoved, fun _ => rfl⟩

/-- A CR drives the bit at the index it moves to, and leaves DAT alone where it moves none. -/
theorem exec_cr_drives (h : exec .cr s = .next t) :
    (t.sh.idx ≠ s.sh.idx → t.dat = !s.sh.lw.getLsbD t.sh.idx.toNat) ∧ (t.sh.idx = s.sh.idx → t.dat = s.dat) := by
  obtain rfl | ⟨_, _, rfl⟩ | ⟨_, _, _, rfl⟩ := exec_handler_cases rfl h
  · exact ⟨fun hmoved => absurd rfl hmoved, fun _ => rfl⟩
  · exact ⟨fun hmoved => absurd rfl hmoved, fun _ => rfl⟩
  · exact clockRiseAction_drives (s.setExt .clk true)

end

end Sys2Proof.Proofs.ReadCycle

namespace Sys2Proof.Proofs

open Sys2Proof.Machine Frames EdgeOutcome ReadCycle

/-- Settles O27: each operation of the burst keeps `Shifting`, with one pulse more after a CR. -/
theorem clocksShiftOutTheLatchedWord : Obligations.ClocksShiftOutTheLatchedWord := by
  unfold Obligations.ClocksShiftOutTheLatchedWord
  intro r s _ hlie hcie hwa hmode hlf
  have hlatched := shifting_of_exec_lf hlie hcie hwa hmode hlf
  have hshifts : ∀ (ops : List Instr) (t : State), (∀ i ∈ ops, InBurst i) → runOps ops s = .next t →
      t.sh.idx.toNat = min (ops.count .cr) 9 ∧ t.dat = !r.bw.getLsbD (min (ops.count .cr) 9) := by
    intro ops t hops hrun
    have ht := runOps_shifting hops hlatched hrun
    rw [Nat.zero_add] at ht
    exact ⟨ht.idx, ht.dat⟩
  refine ⟨hshifts, fun hclk m => ?_⟩
  have hsclk : s.clk.ext = true := (exec_handler_ext rfl hlf .clk).trans hclk
  obtain ⟨t, hrun, _⟩ := clkps_completes m hsclk
  have ht := hshifts (clkps m) t (fun i => inBurst_of_mem_clkps) hrun
  rw [count_cr_clkps] at ht
  exact ⟨t, hrun, ht⟩

/-- Settles O28: only LF latches a word, and CR reads the word latched. -/
theorem liveButtonWordIsNeverSeenMidBurst : Obligations.LiveButtonWordIsNeverSeenMidBurst := by
  unfold Obligations.LiveButtonWordIsNeverSeenMidBurst
  intro r s t u ops hie hwa hmode hlf hops hrun hcr
  obtain ⟨hext, _⟩ := exec_lf_eq_next.1 hlf
  obtain rfl : latchFallAction (r.setExt .lat false) = s :=
    next_inj.1 ((edge_cd32 .lat false latchFallAction hext hie hwa hmode).symm.trans hlf)
  have hlw : t.sh.lw = r.bw :=
    runOps_keeps (P := fun s => s.sh.lw = r.bw) (fun i hi s t hs h => (exec_lw (fun e => hops (e ▸ hi)) h).trans hs) rfl
      hrun
  exact ⟨hlw, rfl, hlw ▸ exec_cr_drives hcr⟩

/-- Settles O29: LR restores what the LF saved, which the burst in between keeps. -/
theorem readCycleRestoresTheIdleLevels : Obligations.ReadCycleRestoresTheIdleLevels := by
  unfold Obligations.ReadCycleRestoresTheIdleLevels
  intro r hlat hlie hcie hwa hmode
  have hrestores : ∀ (ops : List Instr) (t : State), (∀ i ∈ ops, InBurst i) →
      runOps (.lf :: ops ++ [.lr]) r = .next t →
      t.dat = r.dat ∧ t.lat.olat = r.lat.olat ∧ t.clk.olat = r.clk.olat ∧ t.mode = .cd32 := by
    intro ops t hops hrun
    rw [List.cons_append, runOps_cons] at hrun
    obtain ⟨s, hlf, hrun⟩ := andThen_eq_next.1 hrun
    rw [runOps_append] at hrun
    obtain ⟨u, hburst, hrun⟩ := andThen_eq_next.1 hrun
    rw [runOps_cons, funext runOps_nil, andThen_next_right] at hrun
    exact exec_lr_restores (runOps_shifting hops (shifting_of_exec_lf hlie hcie hwa hmode hlf) hburst) hrun
  refine ⟨hrestores, fun hclk m => ?_⟩
  obtain ⟨t, hrun⟩ := burst_completes hlat hclk m
  obtain ⟨hdat, _⟩ := hrestores (clkps m) t (fun i => inBurst_of_mem_clkps) hrun
  exact ⟨t, hrun, hdat⟩

end Sys2Proof.Proofs
end

section
/-! Host polls counted in the window, and the decision at its end (43_autodetector.md R231, R232, R237). -/

namespace Sys2Proof.Proofs.WindowCount

open Sys2Proof.Machine Frames EdgeOutcome ReadCycle Detection

/-! ## Counting edges -/

/-- `s` with `a` more Latch edges and `b` more Clock edges counted, modulo 2^16 (R200). -/
def addCounts (s : State) (a b : Nat) : State :=
  { s with dw := { s.dw with pl := s.dw.pl + BitVec.ofNat 16 a, pc := s.dw.pc + BitVec.ofNat 16 b } }

/-- The edges that `m` Clock pulses deliver under either value of `CLK_FALL_IRQ` (R237). -/
def clockEdges (irq : Bool) (m : Nat) : Nat := if irq then 2 * m else m

theorem clockEdges_zero (irq : Bool) : clockEdges irq 0 = 0 := by
  cases irq <;> rfl

theorem clockEdges_add (irq : Bool) (m n : Nat) : clockEdges irq (m + n) = clockEdges irq m + clockEdges irq n := by
  cases irq
  · rfl
  · exact Nat.mul_add 2 m n

section

variable (s : State) (l : InLine) (v w : Level)

theorem countEdge_lat (s : State) : countEdge .lat s = addCounts s 1 0 := by
  simp [countEdge, addCounts]

theorem countEdge_clk (s : State) : countEdge .clk s = addCounts s 0 1 := by
  simp [countEdge, addCounts]

theorem addCounts_addCounts (a b c d : Nat) :
    addCounts (addCounts s a b) c d = addCounts s (a + c) (b + d) := by
  simp [addCounts, BitVec.add_assoc, BitVec.ofNat_add]

theorem addCounts_zero : addCounts s 0 0 = s := by
  simp [addCounts]

theorem setExt_addCounts (a b : Nat) : (addCounts s a b).setExt l v = addCounts (s.setExt l v) a b := by
  cases l <;> rfl

theorem setExt_setExt : (s.setExt l v).setExt l w = s.setExt l w := by
  cases l <;> rfl

variable {s l v} in
theorem setExt_of_ext (h : (s.pin l).ext = v) : s.setExt l v = s := by
  subst h
  cases l <;> rfl

end

/-! ## Read cycles in the window -/

/-- The window is open, both interrupts are enabled and the host holds both lines high, as between its polls. -/
structure Polled (s : State) : Prop where
  wa : s.dw.wa = true
  lat_ie : s.lat.ie = true
  clk_ie : s.clk.ie = true
  lat_ext : s.lat.ext = true
  clk_ext : s.clk.ext = true

theorem Polled.addCounts {s : State} (h : Polled s) (a b : Nat) : Polled (addCounts s a b) :=
  ⟨h.wa, h.lat_ie, h.clk_ie, h.lat_ext, h.clk_ext⟩

section

variable {s : State}

/-- The falling Clock edge counts where it interrupts (R204). -/
theorem exec_cf_counts (hwa : s.dw.wa = true) (hie : s.clk.ie = true) (hext : s.clk.ext = true) :
    exec .cf s = .next (addCounts (s.setExt .clk false) 0 (if s.par.clkFallIrq then 1 else 0)) := by
  cases hirq : s.par.clkFallIrq with
  | true =>
    rw [exec_cf_of_fallIrq hirq, edge_counted .clk false clockFallAction hext hie hwa, countEdge_clk]
    rfl
  | false =>
    rw [exec_cf_of_noFallIrq hirq hext]
    exact congrArg Host.Outcome.next (addCounts_zero _).symm

theorem exec_cr_counts (hwa : s.dw.wa = true) (hie : s.clk.ie = true) (hext : s.clk.ext = false) :
    exec .cr s = .next (addCounts (s.setExt .clk true) 0 1) :=
  (edge_counted .clk true clockRiseAction hext hie hwa).trans (by rw [countEdge_clk])

theorem exec_lf_counts (hwa : s.dw.wa = true) (hie : s.lat.ie = true) (hext : s.lat.ext = true) :
    exec .lf s = .next (addCounts (s.setExt .lat false) 1 0) :=
  (edge_counted .lat false latchFallAction hext hie hwa).trans (by rw [countEdge_lat])

theorem exec_lr_counts (hwa : s.dw.wa = true) (hie : s.lat.ie = true) (hext : s.lat.ext = false) :
    exec .lr s = .next (addCounts (s.setExt .lat true) 1 0) :=
  (edge_counted .lat true latchRiseAction hext hie hwa).trans (by rw [countEdge_lat])

theorem clkp_counts (hwa : s.dw.wa = true) (hie : s.clk.ie = true) (hext : s.clk.ext = true) :
    runOps clkp s = .next (addCounts s 0 (clockEdges s.par.clkFallIrq 1)) := by
  refine runOps_pair (exec_cf_counts hwa hie hext) ((exec_cr_counts ?_ ?_ ?_).trans ?_)
  · exact hwa
  · exact hie
  · rfl
  · rw [setExt_addCounts, setExt_setExt, setExt_of_ext (l := .clk) hext, addCounts_addCounts]
    cases s.par.clkFallIrq <;> rfl

theorem clkps_counts (m : Nat) (hwa : s.dw.wa = true) (hie : s.clk.ie = true) (hext : s.clk.ext = true) :
    runOps (clkps m) s = .next (addCounts s 0 (clockEdges s.par.clkFallIrq m)) := by
  induction m generalizing s with
  | zero =>
    rw [clockEdges_zero]
    exact congrArg Host.Outcome.next (addCounts_zero s).symm
  | succ m ih =>
    rw [clkps_succ, runOps_append, clkp_counts hwa hie hext, andThen_next, ih, addCounts_addCounts, Nat.add_comm m,
      clockEdges_add]
    · rfl
    · exact hwa
    · exact hie
    · exact hext

/-- A read cycle moves both lines and back, and counts two Latch edges and its Clock edges (R237). -/
theorem burst_counts (m : Nat) (hs : Polled s) :
    runOps (burst m) s = .next (addCounts s 2 (clockEdges s.par.clkFallIrq m)) := by
  obtain ⟨hwa, hlie, hcie, hlat, hclk⟩ := hs
  have hpulses := clkps_counts (s := addCounts (s.setExt .lat false) 1 0) m hwa hcie hclk
  have hrise := exec_lr_counts
    (s := addCounts (addCounts (s.setExt .lat false) 1 0) 0 (clockEdges s.par.clkFallIrq m)) hwa hlie rfl
  rw [burst, List.cons_append, runOps_cons, exec_lf_counts hwa hlie hlat, andThen_next, runOps_append, hpulses,
    andThen_next, runOps_cons, show (addCounts (s.setExt .lat false) 1 0).par = s.par from rfl, hrise, andThen_next,
    runOps_nil, setExt_addCounts, setExt_addCounts, setExt_setExt, setExt_of_ext (l := .lat) hlat, addCounts_addCounts,
    addCounts_addCounts, Nat.zero_add, Nat.zero_add]
  rfl

theorem bursts_count (n : Nat) (hs : Polled s) :
    runOps (List.replicate n (burst 1)).flatten s =
      .next (addCounts s (2 * n) (clockEdges s.par.clkFallIrq n)) := by
  induction n generalizing s with
  | zero =>
    rw [clockEdges_zero]
    exact congrArg Host.Outcome.next (addCounts_zero s).symm
  | succ n ih =>
    rw [List.replicate_succ, List.flatten_cons, runOps_append, burst_counts 1 hs, andThen_next, ih (hs.addCounts _ _),
      addCounts_addCounts, Nat.add_comm n, Nat.mul_add, clockEdges_add]
    rfl

end

/-! ## The decision -/

section

variable {s t : State}

/-- EN when both counters reached 5, DIS when not (R232). -/
theorem decideMode_cases (s : State) :
    (5 ≤ s.dw.pl.toNat ∧ 5 ≤ s.dw.pc.toNat ∧ decideMode s = enableCd32 s) ∨
      (¬ (5 ≤ s.dw.pl.toNat ∧ 5 ≤ s.dw.pc.toNat) ∧ decideMode s = disableCd32 s) := by
  unfold decideMode
  cases hsaw : sawCd32 s.dw.pl s.dw.pc with
  | true =>
    obtain ⟨hpl, hpc⟩ := sawCd32_eq_true.1 hsaw
    exact .inl ⟨hpl, hpc, rfl⟩
  | false => exact .inr ⟨mt sawCd32_eq_true.2 (by simp [hsaw]), rfl⟩

theorem decideMode_mode (s : State) : (decideMode s).mode = .cd32 ↔ 5 ≤ s.dw.pl.toNat ∧ 5 ≤ s.dw.pc.toNat := by
  obtain ⟨hpl, hpc, e⟩ | ⟨hnot, e⟩ := decideMode_cases s <;> rw [e]
  · exact iff_of_true rfl ⟨hpl, hpc⟩
  · exact iff_of_false (by simp) hnot

theorem decideMode_frame (s : State) :
    (decideMode s).ms = s.ms ∧ (decideMode s).sh = s.sh ∧ (decideMode s).dat = s.dat := by
  obtain ⟨_, _, e⟩ | ⟨_, e⟩ := decideMode_cases s <;> rw [e] <;> simp

/-- The decision leaves listening lines listening, or releases them. -/
theorem decideMode_lines (h : s.Listening) :
    ((decideMode s).mode = .cd32 → (decideMode s).Listening) ∧
      ((decideMode s).mode = .normal →
        (decideMode s).Driving ∧ (decideMode s).lat.olat = true ∧ (decideMode s).clk.olat = true) := by
  obtain ⟨hlat, _⟩ := h
  obtain ⟨_, _, e⟩ | ⟨_, e⟩ := decideMode_cases s <;> rw [e]
  · exact ⟨fun _ => Invariant.enableCd32_listening s, nofun⟩
  · rw [ModeSwitch.disableCd32_of_notInPlace (.inr (.inl hlat))]
    exact ⟨nofun, fun _ => ⟨⟨rfl, rfl, rfl, rfl⟩, rfl, rfl⟩⟩

/-- With the window just opened, a TICK of 100 ends the wait, and WCL closes the window (R232, R234). -/
theorem tick_wcl_closes (hwa : s.dw.wa = true) (hstamp : s.dw.ws = s.ms) :
    runOps [.tick 100, .wcl] s = .next (decideMode (s.advanceMs 100).closeWindow) := by
  have hopened : elapsed s.ms s.dw.ws = 0 := by simp [elapsed, hstamp]
  have hover : elapsed (s.advanceMs 100).ms (s.advanceMs 100).dw.ws = 100 := by
    rw [advanceMs_ms_written, advanceMs_dw, elapsed_add, hopened]
    rfl
  refine runOps_pair (exec_tick_eq_next.2 ⟨mayTick_eq_true.2 fun _ => .inr ?_, rfl⟩) (exec_wcl_over hwa ?_)
  · rw [hopened]
  · rw [hover]

/-- The state when a DET has opened a window and `n` host polls were counted in it. -/
def afterPolls (n : Nat) (s : State) : State :=
  addCounts (listenLines s.openWindow).stampWait (2 * n) (clockEdges s.par.clkFallIrq n)

/-- The counters of `n` polls do not wrap, and reach 5 with 3 polls or with 5 (R237). -/
theorem counts_reach_five {n : Nat} (hn : n < 2 ^ 15) (irq : Bool) :
    5 ≤ (0 + BitVec.ofNat 16 (2 * n)).toNat ∧ 5 ≤ (0 + BitVec.ofNat 16 (clockEdges irq n)).toNat ↔
      (if irq then 3 else 5) ≤ n := by
  simp only [BitVec.ofNat_eq_ofNat, BitVec.toNat_add, BitVec.toNat_ofNat]
  cases irq
  · simp only [clockEdges, Bool.false_eq_true, if_false]
    omega
  · simp only [clockEdges, if_true]
    omega

end

end Sys2Proof.Proofs.WindowCount

namespace Sys2Proof.Proofs

open Sys2Proof.Machine Frames Detection WindowCount

/-- Settles O45: each delivered edge is counted, and the lines are back where they were. -/
theorem readCycleCountsInTheWindow : Obligations.ReadCycleCountsInTheWindow := by
  unfold Obligations.ReadCycleCountsInTheWindow
  refine ⟨fun m s hwa hlie hcie hlat hclk => burst_counts m ⟨hwa, hlie, hcie, hlat, hclk⟩, fun s t h => ?_⟩
  obtain ⟨_, _, rfl⟩ := exec_wcl_eq_next.1 h
  exact decideMode_mode s.closeWindow

/-- Settles O46: DET clears the counters, the polls count, and WCL decides on the lines that DET left listening. -/
theorem detectionSelectsCd32FromEnoughPolls : Obligations.DetectionSelectsCd32FromEnoughPolls := by
  unfold Obligations.DetectionSelectsCd32FromEnoughPolls
  intro n s hn hwa hdd hdue hlat hclk
  have hopens := exec_det_of_due hwa hdd hdue
  have hcounted := bursts_count (s := (listenLines s.openWindow).stampWait) n ⟨rfl, rfl, rfl, hlat, hclk⟩
  have hcloses := tick_wcl_closes (s := afterPolls n s) rfl rfl
  obtain ⟨hms, hsh, hdat⟩ := decideMode_frame ((afterPolls n s).advanceMs 100).closeWindow
  refine ⟨decideMode ((afterPolls n s).advanceMs 100).closeWindow, ?_, by rw [decideMode_dw]; rfl,
    by rw [decideMode_dw]; rfl, hms, hsh, hdat, ?_, decideMode_lines ⟨rfl, rfl, rfl, rfl⟩⟩
  · rw [List.cons_append, runOps_cons, hopens, andThen_next, runOps_append, hcounted, andThen_next]
    exact hcloses
  · exact (decideMode_mode _).trans (counts_reach_five hn s.par.clkFallIrq)

end Sys2Proof.Proofs
end

section
/-! The axis normalization and the direction bits (40_report_decoder.md R141, R144 to R147). -/

namespace Sys2Proof.Proofs.Normalization

open Sys2Proof.Machine

variable {a : AxisField}

/-! ## The range of an axis (R141, R145) -/

theorem iabs_of_nonneg {x : Int} (h : 0 ≤ x) : iabs x = x := Int.natAbs_of_nonneg h

theorem axisDz_of_nonneg (h : 0 ≤ axisHalf a) : axisDz a = axisHalf a / 63 := Int.tdiv_eq_ediv_of_nonneg h

/-- Truncating division moves a negative half range toward zero. -/
theorem axisHalf_le_axisDz (h : axisHalf a ≤ 0) : axisHalf a ≤ axisDz a := by
  have hneg : axisDz a = -(-axisHalf a / 63) := by
    rw [← Int.tdiv_eq_ediv_of_nonneg (by omega), Int.neg_tdiv, Int.neg_neg, axisDz]
  omega

theorem range_pos_iff : 0 < axisHalf a - axisDz a ↔ 1 ≤ axisHalf a := by
  obtain hneg | hpos := le_or_gt (axisHalf a) 0
  · have := axisHalf_le_axisDz hneg
    omega
  · have := axisDz_of_nonneg hpos.le
    omega

theorem one_le_axisHalf_iff : 1 ≤ axisHalf a ↔ 2 ≤ a.logicalMax - iabs a.logicalMin := by
  obtain hneg | hpos := le_or_gt (a.logicalMax - iabs a.logicalMin) 0
  · have hhalf : axisHalf a ≤ Int.tdiv 0 2 := Int.tdiv_le_tdiv (by decide) hneg
    rw [Int.zero_tdiv] at hhalf
    omega
  · have hhalf : axisHalf a = (a.logicalMax - iabs a.logicalMin) / 2 := Int.tdiv_eq_ediv_of_nonneg hpos.le
    omega

/-- A reversed range has no positive half (R145). -/
theorem axisHalf_nonpos_of_reversed (h : a.logicalMin > a.logicalMax) : axisHalf a ≤ 0 := by
  have hsmall : ¬ 2 ≤ a.logicalMax - iabs a.logicalMin := by
    unfold iabs
    omega
  have := mt one_le_axisHalf_iff.1 hsmall
  omega

theorem not_reversed (h : 0 < axisHalf a - axisDz a) : ¬ a.logicalMin > a.logicalMax := by
  intro hreversed
  have hneg := axisHalf_nonpos_of_reversed hreversed
  have hpos := range_pos_iff.1 h
  omega

theorem axisRaw_of_not_reversed (h : ¬ a.logicalMin > a.logicalMax) (u : Nat) : axisRaw u a = u := if_neg h

/-! ## `clamp` and `deadZone` (00_scope.md R11, R144) -/

theorem clamp_mem (v : Int) {lo hi : Int} (h : lo ≤ hi) : lo ≤ clamp v lo hi ∧ clamp v lo hi ≤ hi := by
  unfold clamp
  split
  · omega
  · split <;> omega

theorem clamp_of_le {v lo hi : Int} (h : v ≤ lo) (hb : lo ≤ hi) : clamp v lo hi = lo := by
  unfold clamp
  split
  · rfl
  · split <;> omega

theorem clamp_of_ge {v lo hi : Int} (h : hi ≤ v) (hb : lo ≤ hi) : clamp v lo hi = hi := by
  unfold clamp
  split
  · omega
  · split <;> omega

/-- Clamping to a range brings a value no further from a point of the range. -/
theorem clamp_near {v lo hi m d : Int} (hlo : lo ≤ m) (hhi : m ≤ hi) (h : iabs (v - m) ≤ d) :
    -d ≤ clamp v lo hi - m ∧ clamp v lo hi - m ≤ d := by
  unfold iabs at h
  unfold clamp
  split
  · omega
  · split <;> omega

theorem deadZone_eq_zero {c dz : Int} (hlo : -dz ≤ c) (hhi : c ≤ dz) : deadZone c dz = 0 := by
  rw [deadZone, if_neg (by omega), if_neg (by omega)]

theorem deadZone_of_gt {c dz : Int} (h : dz < c) : deadZone c dz = c - dz := if_pos h

theorem deadZone_of_lt {c dz : Int} (hz : 0 ≤ dz) (h : c < -dz) : deadZone c dz = c + dz := by
  rw [deadZone, if_neg (by omega), if_pos h]

/-! ## The normalized value -/

/-- The distance from the midpoint, less the dead zone. -/
def axisOffset (u : Nat) (a : AxisField) : Int :=
  deadZone (clamp (axisRaw u a) a.logicalMin a.logicalMax - axisMid a) (axisDz a)

theorem axisNorm_eq (u : Nat) (a : AxisField) :
    axisNorm u a = clamp ((axisOffset u a * 127).tdiv (axisHalf a - axisDz a)) (-127) 127 + 127 := rfl

theorem axisNorm_mem (u : Nat) (a : AxisField) : 0 ≤ axisNorm u a ∧ axisNorm u a ≤ 254 := by
  have hclamped := clamp_mem ((axisOffset u a * 127).tdiv (axisHalf a - axisDz a)) (show (-127 : Int) ≤ 127 by decide)
  rw [axisNorm_eq]
  omega

section

variable (hrange : 0 < axisHalf a - axisDz a) (hmin : 0 ≤ a.logicalMin) (u v : Nat)

include hrange

theorem axisDz_nonneg : 0 ≤ axisDz a := by
  have hhalf := range_pos_iff.1 hrange
  have := axisDz_of_nonneg (a := a) (by omega)
  omega

include hmin in
/-- The midpoint lies half a range above the minimum and at least half a range below the maximum. -/
theorem axisMid_eq : axisMid a = a.logicalMin + axisHalf a ∧ axisMid a + axisHalf a ≤ a.logicalMax := by
  have hordered := not_reversed hrange
  have hmid : axisMid a = (a.logicalMin + a.logicalMax) / 2 := by
    rw [axisMid, iabs_of_nonneg hmin, Int.tdiv_eq_ediv_of_nonneg (by omega)]
  have hhalf : axisHalf a = (a.logicalMax - a.logicalMin) / 2 := by
    rw [axisHalf, iabs_of_nonneg hmin, Int.tdiv_eq_ediv_of_nonneg (by omega)]
  omega

/-- An offset of a whole range below is the lowest value. -/
theorem axisNorm_eq_zero (h : axisOffset u a ≤ -(axisHalf a - axisDz a)) : axisNorm u a = 0 := by
  have hquotient : (axisOffset u a * 127).tdiv (axisHalf a - axisDz a) ≤ -127 := by
    have hmono := Int.tdiv_le_tdiv hrange (show axisOffset u a * 127 ≤ -127 * (axisHalf a - axisDz a) by omega)
    rwa [Int.mul_tdiv_cancel _ hrange.ne'] at hmono
  rw [axisNorm_eq, clamp_of_le hquotient (by decide)]
  rfl

/-- An offset of a whole range above is the highest value. -/
theorem axisNorm_eq_254 (h : axisHalf a - axisDz a ≤ axisOffset u a) : axisNorm u a = 254 := by
  have hquotient : 127 ≤ (axisOffset u a * 127).tdiv (axisHalf a - axisDz a) := by
    have hmono := Int.tdiv_le_tdiv hrange (show 127 * (axisHalf a - axisDz a) ≤ axisOffset u a * 127 by omega)
    rwa [Int.mul_tdiv_cancel _ hrange.ne'] at hmono
  rw [axisNorm_eq, clamp_of_ge hquotient (by decide)]
  rfl

theorem axisNorm_mono {u v : Nat} (h : u ≤ v) : axisNorm u a ≤ axisNorm v a := by
  have hordered := not_reversed hrange
  have hraw : axisRaw u a ≤ axisRaw v a := by
    rw [axisRaw_of_not_reversed hordered, axisRaw_of_not_reversed hordered]
    exact Int.ofNat_le.2 h
  have hclamp := clamp_mono hraw (Int.not_lt.1 hordered)
  have hoffset : axisOffset u a ≤ axisOffset v a := deadZone_mono (by omega) (axisDz_nonneg hrange)
  have hquotient := Int.tdiv_le_tdiv hrange (show axisOffset u a * 127 ≤ axisOffset v a * 127 by omega)
  have := clamp_mono hquotient (show (-127 : Int) ≤ 127 by decide)
  rw [axisNorm_eq, axisNorm_eq]
  omega

include hmin

theorem axisNorm_of_near (h : iabs (u - axisMid a) ≤ axisDz a) : axisNorm u a = 127 := by
  obtain ⟨hmid, hmax⟩ := axisMid_eq hrange hmin
  have hhalf := range_pos_iff.1 hrange
  obtain ⟨hlo, hhi⟩ := clamp_near (lo := a.logicalMin) (hi := a.logicalMax) (by omega) (by omega) h
  have hoffset : axisOffset u a = 0 := by
    rw [axisOffset, axisRaw_of_not_reversed (not_reversed hrange)]
    exact deadZone_eq_zero hlo hhi
  rw [axisNorm_eq, hoffset, Int.zero_mul, Int.zero_tdiv]
  rfl

theorem axisNorm_of_mid (h : (u : Int) = axisMid a) : axisNorm u a = 127 := by
  refine axisNorm_of_near hrange hmin u ?_
  rw [h, Int.sub_self]
  exact axisDz_nonneg hrange

theorem axisNorm_of_le_min (h : (u : Int) ≤ a.logicalMin) : axisNorm u a = 0 := by
  obtain ⟨hmid, _⟩ := axisMid_eq hrange hmin
  have hordered := not_reversed hrange
  refine axisNorm_eq_zero hrange u ?_
  rw [axisOffset, axisRaw_of_not_reversed hordered, clamp_of_le h (by omega),
    deadZone_of_lt (axisDz_nonneg hrange) (by omega)]
  omega

theorem axisNorm_of_max_le (h : a.logicalMax ≤ u) : axisNorm u a = 254 := by
  obtain ⟨_, hmax⟩ := axisMid_eq hrange hmin
  have hordered := not_reversed hrange
  refine axisNorm_eq_254 hrange u ?_
  rw [axisOffset, axisRaw_of_not_reversed hordered, clamp_of_ge h (by omega), deadZone_of_gt (by omega)]
  omega

end

/-! ## The direction bits (R142) -/

theorem directionBits_getLsbD (d : DirBit) (x y : Int) {j : Nat} (hj : j < 8) :
    (directionBits d x y).getLsbD j =
      ((decide (y > 192) && decide (d.down.val = j)) || ((decide (y < 64) && decide (d.up.val = j)) ||
        ((decide (x > 192) && decide (d.right.val = j)) || (decide (x < 64) && decide (d.left.val = j))))) := by
  simp only [directionBits, setBitIf_getLsbD _ _ _ _ hj]
  simp

/-- With four different bits each direction has its own (R33). -/
theorem directionBits_of_nodup {d : DirBit} (x y : Int) (h : [d.left, d.right, d.up, d.down].Nodup) :
    (directionBits d x y).getLsbD d.left = decide (x < 64) ∧
      (directionBits d x y).getLsbD d.right = decide (x > 192) ∧
      (directionBits d x y).getLsbD d.up = decide (y < 64) ∧
      (directionBits d x y).getLsbD d.down = decide (y > 192) := by
  have hbit (i : Fin 4) : i.val < 8 := by omega
  simp only [List.nodup_cons, List.mem_cons, List.not_mem_nil, or_false, not_or] at h
  obtain ⟨⟨hlr, hlu, hld⟩, ⟨hru, hrd⟩, hud, _⟩ := h
  simp only [directionBits_getLsbD d x y (hbit _), Fin.val_inj]
  simp [hlr, hlu, hld, hru, hrd, hud, Ne.symm hlr, Ne.symm hlu, Ne.symm hld, Ne.symm hru, Ne.symm hrd, Ne.symm hud]

end Sys2Proof.Proofs.Normalization

namespace Sys2Proof.Proofs

open Sys2Proof.Machine Normalization

/-- Settles O49: the dead zone is less than the half range exactly when that is positive, and 2 halve to 1. -/
theorem admittedAxisConditionsAgree : Obligations.AdmittedAxisConditionsAgree := by
  unfold Obligations.AdmittedAxisConditionsAgree
  exact fun _ => ⟨range_pos_iff, one_le_axisHalf_iff⟩

/-- Settles O50: a reversed range has no positive half, and an admitted one has. -/
theorem signedBranchIsUnreachable : Obligations.SignedBranchIsUnreachable := by
  unfold Obligations.SignedBranchIsUnreachable
  intro a u
  exact ⟨fun h => ⟨not_reversed h, axisRaw_of_not_reversed (not_reversed h) u⟩, axisHalf_nonpos_of_reversed⟩

/-- Settles O51: every part of `axisNorm` is monotone; at the ends the offset is a whole range. -/
theorem normalizationLaws : Obligations.NormalizationLaws := by
  unfold Obligations.NormalizationLaws
  refine ⟨fun a hrange hmin => ?_, fun d x y => directionBits_of_nodup x y⟩
  exact ⟨axisNorm_of_mid hrange hmin, axisNorm_of_near hrange hmin, axisNorm_of_le_min hrange hmin,
    axisNorm_of_max_le hrange hmin, fun _ _ => axisNorm_mono hrange⟩

/-- Settles O52: the last clamp. -/
theorem normalizedAxisIsBelow255 : Obligations.NormalizedAxisIsBelow255 := by
  unfold Obligations.NormalizedAxisIsBelow255
  exact fun a u => axisNorm_mem u a

/-- Settles O53: the listed values are computed; the thresholds follow from four of them, since `axisNorm` is
monotone. -/
theorem normalizationWorkedValues : Obligations.NormalizationWorkedValues := by
  unfold Obligations.NormalizationWorkedValues
  refine ⟨by decide, by decide, fun u _ => ?_⟩
  have hmono {v w : Nat} : v ≤ w → axisNorm v ⟨0, 8, 0, 255⟩ ≤ axisNorm w ⟨0, 8, 0, 255⟩ :=
    axisNorm_mono (a := ⟨0, 8, 0, 255⟩) (by decide)
  have h62 : axisNorm 62 ⟨0, 8, 0, 255⟩ = 63 := by decide
  have h63 : axisNorm 63 ⟨0, 8, 0, 255⟩ = 65 := by decide
  have h193 : axisNorm 193 ⟨0, 8, 0, 255⟩ = 192 := by decide
  have h194 : axisNorm 194 ⟨0, 8, 0, 255⟩ = 193 := by decide
  constructor
  · obtain hle | hgt := le_or_gt u 62
    · have := hmono hle
      omega
    · have := hmono (show 63 ≤ u from hgt)
      omega
  · obtain hlt | hge := Nat.lt_or_ge u 194
    · have := hmono (show u ≤ 193 from Nat.le_of_lt_succ hlt)
      omega
    · have := hmono hge
      omega

end Sys2Proof.Proofs
end

section
/-! DEC and REPORT: the payload, the decoded state, the failures (20_memory.md R71; 40_report_decoder.md R142;
60_exceptions.md R260, R261; 30_encoding.md R117). -/

namespace Sys2Proof.Proofs.Report

open Sys2Proof.Machine Normalization ProcLines

/-! ## The payload (20_memory.md R71) -/

theorem memRead_payload_of_lt {c : HidFieldConfig} {raw : List Byte} {a : Nat} (h : skip c + a < raw.length) :
    memRead (payload c raw) a = raw.getD (skip c + a) 0 := by
  simp [memRead_payload, List.getElem?_eq_getElem h]

theorem skip_of_reportId {c : HidFieldConfig} (h : c.reportIdPresent = true) : skip c = 1 := if_pos h

theorem skip_of_no_reportId {c : HidFieldConfig} (h : c.reportIdPresent = false) : skip c = 0 := by
  simp [skip, h]

theorem payload_length (c : HidFieldConfig) (raw : List Byte) : (payload c raw).length = raw.length - skip c :=
  List.length_drop ..

/-- Two reports decode alike when they agree on the bytes that an admitted layout covers (R141, R142). -/
theorem decodeReport_congr {d : DirBit} {c : HidFieldConfig} {raw raw' : List Byte} (hadmitted : admitted c = true)
    (h : ∀ a, skip c ≤ a → a < c.reportLength → raw[a]? = raw'[a]?) : decodeReport d c raw = decodeReport d c raw' := by
  obtain ⟨_, haxis₀, haxis₁, hbuttons⟩ := admitted_eq_true.1 hadmitted
  obtain ⟨_, hfits₀, _⟩ := axisAdmitted_eq_true.1 haxis₀
  obtain ⟨_, hfits₁, _⟩ := axisAdmitted_eq_true.1 haxis₁
  have hread : ∀ a < c.reportLength - skip c, memRead (payload c raw) a = memRead (payload c raw') a := by
    intro a ha
    rw [memRead_payload, memRead_payload, h _ (by omega) (by omega)]
  have hpressed : pressed (payload c raw) c = pressed (payload c raw') c := by
    funext b
    rw [pressed, pressed, hread _ (hbuttons b)]
  simp only [decodeReport, axisValue, field_congr hread hfits₀, field_congr hread hfits₁, hpressed]

/-! ## The gamepad state (R142) -/

section

variable (d : DirBit) (x y : Int) (pr : Fin 12 → Bool)

theorem directionBits_high {j : Nat} (hlow : 4 ≤ j) (hj : j < 8) : (directionBits d x y).getLsbD j = false := by
  have hne (i : Fin 4) : i.val ≠ j := by omega
  simp [directionBits_getLsbD d x y hj, hne]

/-- The buttons go to bits 4 to 7 of `dp`. -/
theorem gamepadOf_dp_low (i : Fin 4) : (gamepadOf d x y pr).dp.getLsbD i = (directionBits d x y).getLsbD i := by
  have hne : 7 ≠ i.val ∧ 6 ≠ i.val ∧ 5 ≠ i.val ∧ 4 ≠ i.val := by omega
  simp only [gamepadOf, setBitIf_getLsbD _ _ _ _ (show i.val < 8 by omega)]
  simp [hne]

/-- Buttons 0 to 3 are `dp[7:4]`. -/
theorem gamepadOf_dp_high {b : Nat} (h : b < 4) : (gamepadOf d x y pr).dp.getLsbD (4 + b) = pr ⟨b, by omega⟩ := by
  have hbyte : 4 + b < 8 := by omega
  simp only [gamepadOf, setBitIf_getLsbD _ _ _ _ hbyte, directionBits_high d x y (Nat.le_add_right 4 b) hbyte]
  interval_cases b <;> simp

/-- Buttons 4 to 11 are `ex`. -/
theorem gamepadOf_ex {b : Nat} (h : b < 8) : (gamepadOf d x y pr).ex.getLsbD b = pr ⟨b + 4, by omega⟩ := by
  simp only [gamepadOf, setBitIf_getLsbD _ _ _ _ h]
  interval_cases b <;> simp

theorem gamepadOf_buttons (b : Fin 12) :
    (if b.val ≤ 3 then (gamepadOf d x y pr).dp.getLsbD (4 + b.val) else (gamepadOf d x y pr).ex.getLsbD (b.val - 4)) =
      pr b := by
  split
  · next hlow => rw [gamepadOf_dp_high d x y pr (Nat.lt_succ_of_le hlow)]
  · next hhigh =>
    rw [gamepadOf_ex d x y pr (by omega)]
    congr
    omega

end

theorem pressed_eq (p : List Byte) (c : HidFieldConfig) (b : Fin 12) :
    pressed p c b = decide (memRead p c.button[b].byteOffset &&& c.button[b].bitmask ≠ 0) := by
  rw [Bool.eq_iff_iff, pressed, bne_iff_ne, decide_eq_true_iff]

/-- The direction bits of a decoded report. -/
theorem decodeReport_directions {d : DirBit} (c : HidFieldConfig) (raw : List Byte)
    (h : [d.left, d.right, d.up, d.down].Nodup) :
    (decodeReport d c raw).dp.getLsbD d.left = decide (axisValue (payload c raw) c.axis0 < 64) ∧
      (decodeReport d c raw).dp.getLsbD d.right = decide (axisValue (payload c raw) c.axis0 > 192) ∧
      (decodeReport d c raw).dp.getLsbD d.up = decide (axisValue (payload c raw) c.axis1 < 64) ∧
      (decodeReport d c raw).dp.getLsbD d.down = decide (axisValue (payload c raw) c.axis1 > 192) := by
  unfold decodeReport
  simp only [gamepadOf_dp_low]
  exact directionBits_of_nodup _ _ h

/-! ## The outcomes of DEC -/

section

variable {raw : List Byte} {s : State} (hwa : s.dw.wa = false)

include hwa

theorem exec_dec_malformed (h : ¬ admitted s.cfg) : exec (.dec raw) s = .refused .malformedConfig := by
  rw [exec, execDec, whenPollingFree_free hwa, Bool.eq_false_iff.2 h, cond_false]

variable (hadmitted : admitted s.cfg = true)

include hadmitted

theorem exec_dec_empty (h : raw = []) : exec (.dec raw) s = .next { s with failure := some .emptyReport } :=
  exec_dec_eq_next.2 ⟨hwa, hadmitted, if_pos (by rw [h]; rfl)⟩

variable (hne : raw ≠ [])

include hne

theorem exec_dec_short (h : raw.length < s.cfg.reportLength) :
    exec (.dec raw) s = .next { s with failure := some .shortRead } :=
  exec_dec_eq_next.2 ⟨hwa, hadmitted, by rw [if_neg (mt List.length_eq_zero_iff.1 hne), if_pos h]⟩

theorem exec_dec_decoded (h : s.cfg.reportLength ≤ raw.length) :
    exec (.dec raw) s = .next { s with gs := decodeReport s.par.dirBit s.cfg raw, failure := none } :=
  exec_dec_eq_next.2 ⟨hwa, hadmitted, by rw [if_neg (mt List.length_eq_zero_iff.1 hne), if_neg (Nat.not_lt.2 h)]⟩

end

/-- The value that a DEC returns (60_exceptions.md R260). -/
theorem exec_dec_failure {raw : List Byte} {s t : State} (h : exec (.dec raw) s = .next t) :
    t.failure =
      if raw.length = 0 then some .emptyReport
      else if raw.length < s.cfg.reportLength then some .shortRead
      else none := by
  obtain ⟨_, _, rfl⟩ := exec_dec_eq_next.1 h
  split
  · rfl
  · split <;> rfl

/-- Without a failure the report was decoded. -/
theorem exec_dec_gs {raw : List Byte} {s t : State} (h : exec (.dec raw) s = .next t) (hok : t.failure = none) :
    t.gs = decodeReport s.par.dirBit s.cfg raw := by
  obtain ⟨_, _, rfl⟩ := exec_dec_eq_next.1 h
  split at hok
  · exact nomatch hok
  · next hne =>
    split at hok
    · exact nomatch hok
    · next hlong => rw [if_neg hne, if_neg hlong]

/-! ## REPORT (30_encoding.md R117, 60_exceptions.md R261) -/

section

variable {raw : List Byte} {s t : State}

theorem runReport_of_failure {e : DecodeFailure} (hdec : exec (.dec raw) s = .next t) (h : t.failure = some e) :
    runReport raw s = .next t := by
  simp only [runReport, hdec, andThen_next, h]

theorem runReport_of_success (hdec : exec (.dec raw) s = .next t) (h : t.failure = none) :
    runReport raw s = exec (.proc t.gs.dp t.gs.ex) t := by
  simp only [runReport, hdec, andThen_next, h]

/-! ## The lines that a report drives -/

theorem line_cases (l : Line) : (∃ i, l = .dir i) ∨ ∃ d, l = dualLine d := by
  cases l with
  | dir i => exact .inl ⟨i, rfl⟩
  | lat => exact .inr ⟨.lat, rfl⟩
  | clk => exact .inr ⟨.clk, rfl⟩
  | dat => exact .inr ⟨.dat, rfl⟩

theorem dir_ne_dualLine (i : Fin 4) (d : DualLine) : Line.dir i ≠ dualLine d := by
  cases d <;> exact nofun

/-- Four different bits are all four. -/
theorem direction_cases : ∀ {l r u d : Fin 4}, [l, r, u, d].Nodup → ∀ i, i = l ∨ i = r ∨ i = u ∨ i = d := by
  decide

/-- Three different lines are all three. -/
theorem button_cases {p q r : DualLine} : [p, q, r].Nodup → ∀ d, d = p ∨ d = q ∨ d = r := by
  intro h d
  cases p <;> cases q <;> cases r <;> cases d <;> simp_all

/-- PROC in Normal mode with one direction bit and button 0's bit set drives their two lines low and every other line
high (41_mode_controller.md R171). -/
theorem lineOut_proc_two_low {dp ex : Byte} {right : Fin 4} (hlegal : s.par.Legal) (hmode : s.mode = .normal)
    (hdir : ∀ i : Fin 4, dp.getLsbD i = decide (i = right)) (h4 : dp.getLsbD 4 = true) (h5 : dp.getLsbD 5 = false)
    (h6 : dp.getLsbD 6 = false) (l : Line) :
    (procButtons dp (procWord dp ex (procDirections dp s))).lineOut l =
      decide (l ≠ .dir right ∧ l ≠ dualLine s.par.btnLine.b4) := by
  obtain ⟨i, rfl⟩ | ⟨d, rfl⟩ := line_cases l
  · rw [lineOut_dir_proc, hdir]
    simp [dir_ne_dualLine]
  · obtain ⟨e4, e5, e6⟩ := lineOut_procButtons (dp := dp) (s := procWord dp ex (procDirections dp s)) hlegal hmode
    have hdiffer : ¬ s.par.btnLine.b5 = s.par.btnLine.b4 ∧ ¬ s.par.btnLine.b6 = s.par.btnLine.b4 := by
      simpa [eq_comm, and_assoc] using (List.nodup_cons.1 hlegal.2).1
    obtain rfl | rfl | rfl := button_cases hlegal.2 d
    · exact e4.trans (by rw [h4]; simp)
    · exact e5.trans (by rw [h5]; simp [dualLine_inj, hdiffer, (dir_ne_dualLine _ _).symm])
    · exact e6.trans (by rw [h6]; simp [dualLine_inj, hdiffer, (dir_ne_dualLine _ _).symm])

/-- The decoded state of a report with axis 0 at its maximum, axis 1 neutral and button 0 alone pressed (R142, R146). -/
theorem decodeReport_right_and_button_zero (hlegal : s.par.Legal) (hadmitted : admitted s.cfg = true)
    (hmin : 0 ≤ s.cfg.axis0.logicalMin)
    (hmax : s.cfg.axis0.logicalMax ≤ field (payload s.cfg raw) s.cfg.axis0.bitOffset s.cfg.axis0.bitSize)
    (hlow : 64 ≤ axisValue (payload s.cfg raw) s.cfg.axis1) (hhigh : axisValue (payload s.cfg raw) s.cfg.axis1 ≤ 192)
    (hpressed : ∀ b : Fin 12, pressed (payload s.cfg raw) s.cfg b = decide (b = 0)) :
    (∀ i : Fin 4, (decodeReport s.par.dirBit s.cfg raw).dp.getLsbD i = decide (i = s.par.dirBit.right)) ∧
      (decodeReport s.par.dirBit s.cfg raw).dp.getLsbD 4 = true ∧
      (decodeReport s.par.dirBit s.cfg raw).dp.getLsbD 5 = false ∧
      (decodeReport s.par.dirBit s.cfg raw).dp.getLsbD 6 = false := by
  have haxis₀ : axisValue (payload s.cfg raw) s.cfg.axis0 = 254 := by
    obtain ⟨_, hadmitted₀, _⟩ := admitted_eq_true.1 hadmitted
    obtain ⟨_, _, hrange⟩ := axisAdmitted_eq_true.1 hadmitted₀
    exact axisNorm_of_max_le hrange hmin _ hmax
  obtain ⟨hleft, hright, hup, hdown⟩ := decodeReport_directions s.cfg raw hlegal.1
  refine ⟨fun i => ?_, ?_, ?_, ?_⟩
  · have hdiffer := hlegal.1
    simp only [List.nodup_cons, List.mem_cons, List.not_mem_nil, or_false, not_or] at hdiffer
    obtain ⟨⟨hlr, _, _⟩, ⟨hru, hrd⟩, _⟩ := hdiffer
    obtain rfl | rfl | rfl | rfl := direction_cases hlegal.1 i
    · rw [hleft, haxis₀, decide_eq_false hlr]
      rfl
    · rw [hright, haxis₀]
      simp
    · rw [hup, decide_eq_false (Ne.symm hru), decide_eq_false (by omega)]
    · rw [hdown, decide_eq_false (Ne.symm hrd), decide_eq_false (by omega)]
  · exact (gamepadOf_dp_high _ _ _ _ (b := 0) (by decide)).trans (hpressed 0)
  · exact (gamepadOf_dp_high _ _ _ _ (b := 1) (by decide)).trans (hpressed 1)
  · exact (gamepadOf_dp_high _ _ _ _ (b := 2) (by decide)).trans (hpressed 2)

end

end Sys2Proof.Proofs.Report

namespace Sys2Proof.Proofs

open Sys2Proof.Machine Frames Report Enabling Normalization

/-- Settles O47: the payload is the report without the bytes skipped. -/
theorem payloadSkipsTheReportId : Obligations.PayloadSkipsTheReportId := by
  unfold Obligations.PayloadSkipsTheReportId
  refine fun c raw => ⟨fun hid => ⟨?_, fun a ha => ?_⟩, fun hid => ⟨?_, fun a ha => ?_⟩⟩
  · rw [payload_length, skip_of_reportId hid]
  · rw [memRead_payload_of_lt (by rw [skip_of_reportId hid]; omega), skip_of_reportId hid, Nat.add_comm]
  · rw [payload_length, skip_of_no_reportId hid, Nat.sub_zero]
  · rw [memRead_payload_of_lt (by rw [skip_of_no_reportId hid]; omega), skip_of_no_reportId hid, Nat.zero_add]

/-- Settles O54: each bit of `GS` is set once. -/
theorem decodeWritesTheGamepadState : Obligations.DecodeWritesTheGamepadState := by
  unfold Obligations.DecodeWritesTheGamepadState
  intro raw s hlegal
  refine ⟨fun hwa => exec_pollingBusy hwa rfl nofun, exec_dec_malformed, exec_dec_empty, exec_dec_short,
    fun hwa hadmitted hne hlong => ⟨_, exec_dec_decoded hwa hadmitted hne hlong, ?_⟩⟩
  obtain ⟨hleft, hright, hup, hdown⟩ := decodeReport_directions s.cfg raw hlegal.1
  exact ⟨hleft, hright, hup, hdown, fun b => (gamepadOf_buttons _ _ _ _ b).trans (pressed_eq _ _ b)⟩

/-- Settles O55: the three branches of a DEC that completes; the type of faults is empty. -/
theorem onlyDecodeFails : Obligations.OnlyDecodeFails := by
  unfold Obligations.OnlyDecodeFails
  refine ⟨rfl, rfl, fun i s t h hchanged => ?_, fun raw s t h => ?_, fun _ _ e => nomatch e⟩
  · by_contra hnot
    exact hchanged (exec_failure h fun raw e => hnot ⟨raw, e⟩)
  · rw [exec_dec_failure h]
    split
    · simp [*]
    · next hne =>
      have hpos := Nat.pos_of_ne_zero hne
      split <;> simp [*]

/-- Settles O56: a value is not both below 64 and above 192. -/
theorem oppositeDirectionsExclude : Obligations.OppositeDirectionsExclude := by
  unfold Obligations.OppositeDirectionsExclude
  intro raw s t hlegal h hok
  obtain ⟨hleft, hright, hup, hdown⟩ := decodeReport_directions s.cfg raw hlegal.1
  rw [exec_dec_gs h hok, hleft, hright, hup, hdown]
  simp only [Bool.and_eq_false_iff, decide_eq_false_iff_not]
  omega

/-- Settles O57: an admitted layout has every field and every button inside the payload. -/
theorem bytesOutsideThePayloadAreIgnored : Obligations.BytesOutsideThePayloadAreIgnored := by
  unfold Obligations.BytesOutsideThePayloadAreIgnored
  intro raw raw' s hne hne' hlong hlong' hagree
  cases hwa : s.dw.wa with
  | true => rw [exec_pollingBusy (i := .dec raw) hwa rfl nofun, exec_pollingBusy (i := .dec raw') hwa rfl nofun]
  | false =>
    by_cases hadmitted : admitted s.cfg = true
    · rw [exec_dec_decoded hwa hadmitted hne hlong, exec_dec_decoded hwa hadmitted hne' hlong',
        decodeReport_congr hadmitted hagree]
    · rw [exec_dec_malformed hwa hadmitted, exec_dec_malformed hwa hadmitted]

/-- Settles O58: REPORT goes on to PROC exactly when DEC returned no failure. -/
theorem failedReportKeepsThePublishedState : Obligations.FailedReportKeepsThePublishedState := by
  unfold Obligations.FailedReportKeepsThePublishedState
  intro raw s hwa hadmitted
  refine ⟨fun hfails => ?_, fun hlong hne => ?_⟩
  · by_cases hempty : raw = []
    · exact ⟨_, runReport_of_failure (exec_dec_empty hwa hadmitted hempty) rfl⟩
    · exact ⟨_, runReport_of_failure (exec_dec_short hwa hadmitted hempty (hfails.resolve_right hempty)) rfl⟩
  · have hdec := exec_dec_decoded hwa hadmitted hne hlong
    have hreport := runReport_of_success hdec rfl
    exact ⟨_, hdec, hreport, _, hreport.trans (exec_proc_eq_next.2 ⟨hwa, rfl⟩)⟩

/-- Settles O59: DEC sets the right bit and button 0's bit alone, and PROC drives their two lines low. -/
theorem rightAndButtonZeroDriveTwoLinesLow : Obligations.RightAndButtonZeroDriveTwoLinesLow := by
  unfold Obligations.RightAndButtonZeroDriveTwoLinesLow
  intro raw s hwa hmode hlegal hadmitted hmin hne hlong hmax hlow hhigh hpressed
  have hreport := runReport_of_success (exec_dec_decoded hwa hadmitted hne hlong) rfl
  obtain ⟨hdir, h4, h5, h6⟩ :=
    decodeReport_right_and_button_zero (s := s) hlegal hadmitted hmin hmax hlow hhigh hpressed
  refine ⟨_, hreport.trans (exec_proc_eq_next.2 ⟨hwa, rfl⟩), ?_⟩
  exact lineOut_proc_two_low
    (s := { s with gs := decodeReport s.par.dirBit s.cfg raw, failure := none }) hlegal hmode hdir h4 h5 h6

end Sys2Proof.Proofs
end
